-- ==== Sys2Proof/Word.lean ====
section
/-! DEFINITION. Word.lean: the two word types of the machine (R6: data width 8 bits, address width 16 bits). -/

namespace Sys2Proof

/-- A byte: the datum of every bus access and the width of A, X, Y, SP and P (R6, R20). -/
abbrev Byte := BitVec 8

/-- A 16-bit bus address: the width of PC and of every effective address (R6, R83). -/
abbrev Addr := BitVec 16

end Sys2Proof
end

