-- ==== Sys2Proof/Machine/Bits.lean ====
section
/-! DEFINITION. Machine/Bits.lean: byte order, page arithmetic and sign extension, each decided once. -/

namespace Sys2Proof

/-- The concatenation of two bytes, `hi` in the upper half (R9); with R71 the low byte is the one at the lower address. -/
def mkAddr (hi lo : Byte) : Addr := hi ++ lo

/-- Bits 15:8 of an address: its page number (R12 "Page"). -/
def hiByte (a : Addr) : Byte := a.extractLsb' 8 8

/-- Bits 7:0 of an address. -/
def loByte (a : Addr) : Byte := a.extractLsb' 0 8

/-- The zero-page address `$00dd` of an operand byte (R103). -/
def zeroPage (d : Byte) : Addr := mkAddr 0x00#8 d

/-- The stack address `$0100 | SP` (R24). -/
def stackAddr (sp : Byte) : Addr := mkAddr 0x01#8 sp

/-- `sext_16` of a branch offset (R10, R134). -/
def sext16 (off : Byte) : Addr := off.signExtend 16

/-- The address on the page of `base` with the low byte of `target`: the place of the dummy read that is made before the
carry into the high byte (R138, R264). -/
def uncorrected (base target : Addr) : Addr := mkAddr (hiByte base) (loByte target)

/-- An address computation from `base` to `target` crosses a page (R142). -/
def crosses (base target : Addr) : Bool := hiByte target != hiByte base

/-- Byte number `k` of a number, byte 0 the least significant. -/
def byteOf (w k : Nat) : Byte := BitVec.ofNat 8 (w / 256 ^ k)

end Sys2Proof
end

