-- ==== Sys2Proof/Config.lean ====
section
/-! DEFINITION. Config.lean: the parameters of a run (R7) and the free values the spec leaves open (R64, R343). -/

namespace Sys2Proof

/-- FREE VALUE (R64, D7; log entry 1): the number behind the `n`-th placeholder draw.
`OpenBus.draw` reduces it to a member of the parameter set `OPEN_BUS`. -/
opaque Config.openBusDraw : Nat → Nat

/-- FREE VALUE (R343, D9; log entry 2): the byte that address `a` of SysRAM holds after the reset numbered `epoch` when
`RAM_INIT = random`. -/
opaque Config.randomRamByte (epoch : Nat) (a : Nat) : Byte

/-- The parameter `BITOPS` (R7, R111, D2). -/
inductive BitOps where
  | nop
  | rockwell
  deriving DecidableEq, Repr

/-- The parameter `WAI_STP` (R7, R111, D3). -/
inductive WaiStp where
  | nop
  | wdc
  deriving DecidableEq, Repr

/-- The two parameters that select the opcode map (R107, R290). -/
structure Variant where
  bitops : BitOps
  waiStp : WaiStp
  deriving DecidableEq, Repr

/-- The map of `opcode_table.json`: `BITOPS = nop` and `WAI_STP = nop` (R107). -/
def Variant.table : Variant := ⟨.nop, .nop⟩

/-- The parameter `RAM_INIT` (R7, R343, D9). -/
inductive RamInit where
  | zero
  | random
  deriving DecidableEq, Repr

/-- The parameter `OPEN_BUS`, "set of bytes, or a fixed byte" (R7, R64, D7).
A set is written as one member and the list of the others, so that it is never empty. -/
inductive OpenBus where
  | fixed (b : Byte)
  | oneOf (first : Byte) (others : List Byte)
  deriving DecidableEq, Repr

/-- The default set `$01..$FE` (R7). -/
def OpenBus.standard : OpenBus := .oneOf 0x01#8 ((List.range 253).map fun i => BitVec.ofNat 8 (i + 2))

/-- The parameters of a run (R7).
`IRQ_LINE` and `NMI_EDGE` are inputs and stand in State; `clock_hz` touches no rule (R4, D6).
A ROM image lists the bytes that are not zero, by offset: an image is zero-padded and an absent ROM1 is all zeros (R76). -/
structure Params where
  rom0 : List Host.Cell
  rom1 : List Host.Cell
  ramInit : RamInit
  openBus : OpenBus
  initSp : Byte
  initA : Byte
  initX : Byte
  initY : Byte
  variant : Variant
  intClearsD : Bool
  deriving DecidableEq, Repr

/-- The parameters `State.reset` is built from: R7's defaults where it gives one; where it gives none, empty ROM images
(log entry 3), zeroed RAM (log entry 2) and the initial registers of log entry 4 (DESIGN CHOICE). -/
def Params.standard : Params where
  rom0 := []
  rom1 := []
  ramInit := .zero
  openBus := .standard
  initSp := 0xFD#8
  initA := 0x00#8
  initX := 0x00#8
  initY := 0x00#8
  variant := .table
  intClearsD := false

end Sys2Proof
end

