-- ==== Sys2Proof/Syntax.lean ====
section
/-! DEFINITION. Syntax.lean: the instructions, one constructor for each rule of files 41 to 49.
A row of spec/opcode_table.json is one constructor applied to one operand form; the rows of one mnemonic whose rules differ
(JMP, NOP) have a constructor each. The last six constructors are the rows of R290, which replace rows of mnemonic NOP. -/

namespace Sys2Proof

/-- The addressing modes that produce an effective address (R130, R135 to R141), with their operand bytes (R103). -/
inductive MemMode where
  | zp (d : Byte)
  | zpx (d : Byte)
  | zpy (d : Byte)
  | abs (a : Addr)
  | abx (a : Addr)
  | aby (a : Addr)
  | izx (d : Byte)
  | izy (d : Byte)
  | izp (d : Byte)
  deriving DecidableEq, Repr

/-- The operand of a read-class instruction: an immediate byte (R133) or a byte of memory. -/
inductive Src where
  | imm (v : Byte)
  | mem (m : MemMode)
  deriving DecidableEq, Repr

/-- The operand of a read-modify-write instruction: the accumulator (R132) or a byte of memory. -/
inductive Tgt where
  | acc
  | mem (m : MemMode)
  deriving DecidableEq, Repr

/-- The instructions of the core. -/
inductive Instr where
  -- loads, stores and register transfers (R160 to R172)
  | lda (src : Src)
  | ldx (src : Src)
  | ldy (src : Src)
  | sta (m : MemMode)
  | stx (m : MemMode)
  | sty (m : MemMode)
  | stz (m : MemMode)
  | tax
  | tay
  | txa
  | tya
  | tsx
  | txs
  -- stack (R180 to R187)
  | pha
  | php
  | phx
  | phy
  | pla
  | plp
  | plx
  | ply
  -- increment and decrement (R200 to R205)
  | inc (t : Tgt)
  | dec (t : Tgt)
  | inx
  | iny
  | dex
  | dey
  -- add, subtract and compare (R210 to R214)
  | adc (src : Src)
  | sbc (src : Src)
  | cmp (src : Src)
  | cpx (src : Src)
  | cpy (src : Src)
  -- logic, bit test, shifts and rotates (R220 to R229)
  | and (src : Src)
  | ora (src : Src)
  | eor (src : Src)
  | bit (src : Src)
  | asl (t : Tgt)
  | lsr (t : Tgt)
  | rol (t : Tgt)
  | ror (t : Tgt)
  | tsb (m : MemMode)
  | trb (m : MemMode)
  -- flag operations (R240 to R246)
  | clc
  | sec
  | cld
  | sed
  | cli
  | sei
  | clv
  -- jumps, subroutine call and return (R250 to R254)
  | jmpAbs (a : Addr)
  | jmpInd (a : Addr)
  | jmpIax (a : Addr)
  | jsr (a : Addr)
  | rts
  -- branches (R255 to R263)
  | bpl (off : Byte)
  | bmi (off : Byte)
  | bvc (off : Byte)
  | bvs (off : Byte)
  | bcc (off : Byte)
  | bcs (off : Byte)
  | bne (off : Byte)
  | beq (off : Byte)
  | bra (off : Byte)
  -- software interrupt and return (R270, R271)
  | brk
  | rti
  -- no-operations (R272 to R278); where a class has several opcodes the constructor carries the opcode
  | nop
  | nop1 (op : Byte)
  | nopImm (op d : Byte)
  | nopZp (d : Byte)
  | nopZpx (op d : Byte)
  | nopAbs (op : Byte) (a : Addr)
  | nopAbs8 (a : Addr)
  -- the halt sentinel (R281)
  | halt
  -- parameter-gated instructions (R291 to R296); `n` is opcode bits 6:4
  | rmb (n : BitVec 3) (d : Byte)
  | smb (n : BitVec 3) (d : Byte)
  | bbr (n : BitVec 3) (d off : Byte)
  | bbs (n : BitVec 3) (d off : Byte)
  | wai
  | stp
  deriving DecidableEq, Repr

end Sys2Proof
end

