-- ==== Sys2Proof/WellFormed.lean ====
section
/-! DEFINITION. WellFormed.lean: which instructions the opcode map of a variant has (R107, R109, R290). -/

namespace Sys2Proof

/-- Short names of the operand forms (R130). -/
inductive Mode where
  | acc | imm | zp | zpx | zpy | abs | abx | aby | izx | izy | izp
  deriving DecidableEq, Repr

def MemMode.mode : MemMode → Mode
  | .zp _ => .zp
  | .zpx _ => .zpx
  | .zpy _ => .zpy
  | .abs _ => .abs
  | .abx _ => .abx
  | .aby _ => .aby
  | .izx _ => .izx
  | .izy _ => .izy
  | .izp _ => .izp

def Src.mode : Src → Mode
  | .imm _ => .imm
  | .mem m => m.mode

def Tgt.mode : Tgt → Mode
  | .acc => .acc
  | .mem m => m.mode

/-- The nine modes of LDA, ADC, SBC, AND, ORA, EOR and CMP (R160, R210 to R212, R220 to R222). -/
def Mode.accumulatorGroup : List Mode := [.imm, .zp, .zpx, .abs, .abx, .aby, .izx, .izy, .izp]

/-- The five modes of the read-modify-write instructions with an accumulator form (R200, R201, R224 to R227). -/
def Mode.rmwGroup : List Mode := [.acc, .zp, .zpx, .abs, .abx]

/-- The opcode is a one-byte, one-cycle no-operation of the variant (R273, R290). -/
def isNop1 (v : Variant) (op : Byte) : Bool :=
  match (op.extractLsb' 0 4).toNat with
  | 0x3 => true
  | 0xB => !(v.waiStp == .wdc && (op == 0xCB#8 || op == 0xDB#8))
  | 0x7 => v.bitops == .nop
  | 0xF => v.bitops == .nop
  | _ => false

/-- The instruction is one the opcode map of the variant has: its operand form is one its rule lists, a no-operation's
opcode belongs to its class, and a parameter-gated instruction is switched on. -/
def Instr.wf (v : Variant) : Instr → Bool
  | .lda src | .adc src | .sbc src | .cmp src | .and src | .ora src | .eor src => Mode.accumulatorGroup.contains src.mode
  | .ldx src => [Mode.imm, .zp, .zpy, .abs, .aby].contains src.mode
  | .ldy src => [Mode.imm, .zp, .zpx, .abs, .abx].contains src.mode
  | .cpx src | .cpy src => [Mode.imm, .zp, .abs].contains src.mode
  | .bit src => [Mode.zp, .abs, .zpx, .abx, .imm].contains src.mode
  | .sta m => [Mode.zp, .zpx, .abs, .abx, .aby, .izx, .izy, .izp].contains m.mode
  | .stx m => [Mode.zp, .zpy, .abs].contains m.mode
  | .sty m => [Mode.zp, .zpx, .abs].contains m.mode
  | .stz m => [Mode.zp, .zpx, .abs, .abx].contains m.mode
  | .inc t | .dec t | .asl t | .lsr t | .rol t | .ror t => Mode.rmwGroup.contains t.mode
  | .tsb m | .trb m => [Mode.zp, .abs].contains m.mode
  | .nop1 op => isNop1 v op
  | .nopImm op _ => [0x22#8, 0x42#8, 0x62#8, 0x82#8, 0xC2#8, 0xE2#8].contains op
  | .nopZpx op _ => [0x54#8, 0xD4#8, 0xF4#8].contains op
  | .nopAbs op _ => [0xDC#8, 0xFC#8].contains op
  | .rmb _ _ | .smb _ _ | .bbr _ _ _ | .bbs _ _ _ => v.bitops == .rockwell
  | .wai | .stp => v.waiStp == .wdc
  | .tax | .tay | .txa | .tya | .tsx | .txs => true
  | .pha | .php | .phx | .phy | .pla | .plp | .plx | .ply => true
  | .inx | .iny | .dex | .dey => true
  | .clc | .sec | .cld | .sed | .cli | .sei | .clv => true
  | .jmpAbs _ | .jmpInd _ | .jmpIax _ | .jsr _ | .rts => true
  | .bpl _ | .bmi _ | .bvc _ | .bvs _ | .bcc _ | .bcs _ | .bne _ | .beq _ | .bra _ => true
  | .brk | .rti | .nop | .nopZp _ | .nopAbs8 _ | .halt => true

end Sys2Proof
end

