-- ==== Sys2Proof/Decode.lean ====
section
/-! DEFINITION. Decode.lean: the decoder (R100 to R103, R107, R117, R290) and the encoder.
The decoder's table is written from spec/opcode_table.json, the encoder's opcodes from the "Encoding" lines of the
instruction rules, so that each checks the other. -/

namespace Sys2Proof

/-- A row of the opcode map: how an instruction is made of its operand bytes (formats F1, F2 and F3 of R101, F3 in its two uses). -/
inductive Row where
  | one (i : Instr)
  | two (f : Byte → Instr)
  | three (f : Addr → Instr)
  | zprel (f : Byte → Byte → Instr)

/-- The operand of format F3 is `{byte 2, byte 1}`, but for `zprel`, whose bytes are a zero-page address and an offset (R103). -/
def Row.build (b1 b2 : Byte) : Row → Instr
  | .one i => i
  | .two f => f b1
  | .three f => f (mkAddr b2 b1)
  | .zprel f => f b1 b2

/-- Opcodes `$00..$0F`. -/
def opcodeRow0 : List Row := [
  .one .brk,
  .two fun d => .ora (.mem (.izx d)),
  .one .halt,
  .one (.nop1 0x03#8),
  .two fun d => .tsb (.zp d),
  .two fun d => .ora (.mem (.zp d)),
  .two fun d => .asl (.mem (.zp d)),
  .one (.nop1 0x07#8),
  .one .php,
  .two fun v => .ora (.imm v),
  .one (.asl .acc),
  .one (.nop1 0x0B#8),
  .three fun a => .tsb (.abs a),
  .three fun a => .ora (.mem (.abs a)),
  .three fun a => .asl (.mem (.abs a)),
  .one (.nop1 0x0F#8)]

/-- Opcodes `$10..$1F`. -/
def opcodeRow1 : List Row := [
  .two fun off => .bpl off,
  .two fun d => .ora (.mem (.izy d)),
  .two fun d => .ora (.mem (.izp d)),
  .one (.nop1 0x13#8),
  .two fun d => .trb (.zp d),
  .two fun d => .ora (.mem (.zpx d)),
  .two fun d => .asl (.mem (.zpx d)),
  .one (.nop1 0x17#8),
  .one .clc,
  .three fun a => .ora (.mem (.aby a)),
  .one (.inc .acc),
  .one (.nop1 0x1B#8),
  .three fun a => .trb (.abs a),
  .three fun a => .ora (.mem (.abx a)),
  .three fun a => .asl (.mem (.abx a)),
  .one (.nop1 0x1F#8)]

/-- Opcodes `$20..$2F`. -/
def opcodeRow2 : List Row := [
  .three fun a => .jsr a,
  .two fun d => .and (.mem (.izx d)),
  .two fun d => .nopImm 0x22#8 d,
  .one (.nop1 0x23#8),
  .two fun d => .bit (.mem (.zp d)),
  .two fun d => .and (.mem (.zp d)),
  .two fun d => .rol (.mem (.zp d)),
  .one (.nop1 0x27#8),
  .one .plp,
  .two fun v => .and (.imm v),
  .one (.rol .acc),
  .one (.nop1 0x2B#8),
  .three fun a => .bit (.mem (.abs a)),
  .three fun a => .and (.mem (.abs a)),
  .three fun a => .rol (.mem (.abs a)),
  .one (.nop1 0x2F#8)]

/-- Opcodes `$30..$3F`. -/
def opcodeRow3 : List Row := [
  .two fun off => .bmi off,
  .two fun d => .and (.mem (.izy d)),
  .two fun d => .and (.mem (.izp d)),
  .one (.nop1 0x33#8),
  .two fun d => .bit (.mem (.zpx d)),
  .two fun d => .and (.mem (.zpx d)),
  .two fun d => .rol (.mem (.zpx d)),
  .one (.nop1 0x37#8),
  .one .sec,
  .three fun a => .and (.mem (.aby a)),
  .one (.dec .acc),
  .one (.nop1 0x3B#8),
  .three fun a => .bit (.mem (.abx a)),
  .three fun a => .and (.mem (.abx a)),
  .three fun a => .rol (.mem (.abx a)),
  .one (.nop1 0x3F#8)]

/-- Opcodes `$40..$4F`. -/
def opcodeRow4 : List Row := [
  .one .rti,
  .two fun d => .eor (.mem (.izx d)),
  .two fun d => .nopImm 0x42#8 d,
  .one (.nop1 0x43#8),
  .two fun d => .nopZp d,
  .two fun d => .eor (.mem (.zp d)),
  .two fun d => .lsr (.mem (.zp d)),
  .one (.nop1 0x47#8),
  .one .pha,
  .two fun v => .eor (.imm v),
  .one (.lsr .acc),
  .one (.nop1 0x4B#8),
  .three fun a => .jmpAbs a,
  .three fun a => .eor (.mem (.abs a)),
  .three fun a => .lsr (.mem (.abs a)),
  .one (.nop1 0x4F#8)]

/-- Opcodes `$50..$5F`. -/
def opcodeRow5 : List Row := [
  .two fun off => .bvc off,
  .two fun d => .eor (.mem (.izy d)),
  .two fun d => .eor (.mem (.izp d)),
  .one (.nop1 0x53#8),
  .two fun d => .nopZpx 0x54#8 d,
  .two fun d => .eor (.mem (.zpx d)),
  .two fun d => .lsr (.mem (.zpx d)),
  .one (.nop1 0x57#8),
  .one .cli,
  .three fun a => .eor (.mem (.aby a)),
  .one .phy,
  .one (.nop1 0x5B#8),
  .three fun a => .nopAbs8 a,
  .three fun a => .eor (.mem (.abx a)),
  .three fun a => .lsr (.mem (.abx a)),
  .one (.nop1 0x5F#8)]

/-- Opcodes `$60..$6F`. -/
def opcodeRow6 : List Row := [
  .one .rts,
  .two fun d => .adc (.mem (.izx d)),
  .two fun d => .nopImm 0x62#8 d,
  .one (.nop1 0x63#8),
  .two fun d => .stz (.zp d),
  .two fun d => .adc (.mem (.zp d)),
  .two fun d => .ror (.mem (.zp d)),
  .one (.nop1 0x67#8),
  .one .pla,
  .two fun v => .adc (.imm v),
  .one (.ror .acc),
  .one (.nop1 0x6B#8),
  .three fun a => .jmpInd a,
  .three fun a => .adc (.mem (.abs a)),
  .three fun a => .ror (.mem (.abs a)),
  .one (.nop1 0x6F#8)]

/-- Opcodes `$70..$7F`. -/
def opcodeRow7 : List Row := [
  .two fun off => .bvs off,
  .two fun d => .adc (.mem (.izy d)),
  .two fun d => .adc (.mem (.izp d)),
  .one (.nop1 0x73#8),
  .two fun d => .stz (.zpx d),
  .two fun d => .adc (.mem (.zpx d)),
  .two fun d => .ror (.mem (.zpx d)),
  .one (.nop1 0x77#8),
  .one .sei,
  .three fun a => .adc (.mem (.aby a)),
  .one .ply,
  .one (.nop1 0x7B#8),
  .three fun a => .jmpIax a,
  .three fun a => .adc (.mem (.abx a)),
  .three fun a => .ror (.mem (.abx a)),
  .one (.nop1 0x7F#8)]

/-- Opcodes `$80..$8F`. -/
def opcodeRow8 : List Row := [
  .two fun off => .bra off,
  .two fun d => .sta (.izx d),
  .two fun d => .nopImm 0x82#8 d,
  .one (.nop1 0x83#8),
  .two fun d => .sty (.zp d),
  .two fun d => .sta (.zp d),
  .two fun d => .stx (.zp d),
  .one (.nop1 0x87#8),
  .one .dey,
  .two fun v => .bit (.imm v),
  .one .txa,
  .one (.nop1 0x8B#8),
  .three fun a => .sty (.abs a),
  .three fun a => .sta (.abs a),
  .three fun a => .stx (.abs a),
  .one (.nop1 0x8F#8)]

/-- Opcodes `$90..$9F`. -/
def opcodeRow9 : List Row := [
  .two fun off => .bcc off,
  .two fun d => .sta (.izy d),
  .two fun d => .sta (.izp d),
  .one (.nop1 0x93#8),
  .two fun d => .sty (.zpx d),
  .two fun d => .sta (.zpx d),
  .two fun d => .stx (.zpy d),
  .one (.nop1 0x97#8),
  .one .tya,
  .three fun a => .sta (.aby a),
  .one .txs,
  .one (.nop1 0x9B#8),
  .three fun a => .stz (.abs a),
  .three fun a => .sta (.abx a),
  .three fun a => .stz (.abx a),
  .one (.nop1 0x9F#8)]

/-- Opcodes `$A0..$AF`. -/
def opcodeRowA : List Row := [
  .two fun v => .ldy (.imm v),
  .two fun d => .lda (.mem (.izx d)),
  .two fun v => .ldx (.imm v),
  .one (.nop1 0xA3#8),
  .two fun d => .ldy (.mem (.zp d)),
  .two fun d => .lda (.mem (.zp d)),
  .two fun d => .ldx (.mem (.zp d)),
  .one (.nop1 0xA7#8),
  .one .tay,
  .two fun v => .lda (.imm v),
  .one .tax,
  .one (.nop1 0xAB#8),
  .three fun a => .ldy (.mem (.abs a)),
  .three fun a => .lda (.mem (.abs a)),
  .three fun a => .ldx (.mem (.abs a)),
  .one (.nop1 0xAF#8)]

/-- Opcodes `$B0..$BF`. -/
def opcodeRowB : List Row := [
  .two fun off => .bcs off,
  .two fun d => .lda (.mem (.izy d)),
  .two fun d => .lda (.mem (.izp d)),
  .one (.nop1 0xB3#8),
  .two fun d => .ldy (.mem (.zpx d)),
  .two fun d => .lda (.mem (.zpx d)),
  .two fun d => .ldx (.mem (.zpy d)),
  .one (.nop1 0xB7#8),
  .one .clv,
  .three fun a => .lda (.mem (.aby a)),
  .one .tsx,
  .one (.nop1 0xBB#8),
  .three fun a => .ldy (.mem (.abx a)),
  .three fun a => .lda (.mem (.abx a)),
  .three fun a => .ldx (.mem (.aby a)),
  .one (.nop1 0xBF#8)]

/-- Opcodes `$C0..$CF`. -/
def opcodeRowC : List Row := [
  .two fun v => .cpy (.imm v),
  .two fun d => .cmp (.mem (.izx d)),
  .two fun d => .nopImm 0xC2#8 d,
  .one (.nop1 0xC3#8),
  .two fun d => .cpy (.mem (.zp d)),
  .two fun d => .cmp (.mem (.zp d)),
  .two fun d => .dec (.mem (.zp d)),
  .one (.nop1 0xC7#8),
  .one .iny,
  .two fun v => .cmp (.imm v),
  .one .dex,
  .one (.nop1 0xCB#8),
  .three fun a => .cpy (.mem (.abs a)),
  .three fun a => .cmp (.mem (.abs a)),
  .three fun a => .dec (.mem (.abs a)),
  .one (.nop1 0xCF#8)]

/-- Opcodes `$D0..$DF`. -/
def opcodeRowD : List Row := [
  .two fun off => .bne off,
  .two fun d => .cmp (.mem (.izy d)),
  .two fun d => .cmp (.mem (.izp d)),
  .one (.nop1 0xD3#8),
  .two fun d => .nopZpx 0xD4#8 d,
  .two fun d => .cmp (.mem (.zpx d)),
  .two fun d => .dec (.mem (.zpx d)),
  .one (.nop1 0xD7#8),
  .one .cld,
  .three fun a => .cmp (.mem (.aby a)),
  .one .phx,
  .one (.nop1 0xDB#8),
  .three fun a => .nopAbs 0xDC#8 a,
  .three fun a => .cmp (.mem (.abx a)),
  .three fun a => .dec (.mem (.abx a)),
  .one (.nop1 0xDF#8)]

/-- Opcodes `$E0..$EF`. -/
def opcodeRowE : List Row := [
  .two fun v => .cpx (.imm v),
  .two fun d => .sbc (.mem (.izx d)),
  .two fun d => .nopImm 0xE2#8 d,
  .one (.nop1 0xE3#8),
  .two fun d => .cpx (.mem (.zp d)),
  .two fun d => .sbc (.mem (.zp d)),
  .two fun d => .inc (.mem (.zp d)),
  .one (.nop1 0xE7#8),
  .one .inx,
  .two fun v => .sbc (.imm v),
  .one .nop,
  .one (.nop1 0xEB#8),
  .three fun a => .cpx (.mem (.abs a)),
  .three fun a => .sbc (.mem (.abs a)),
  .three fun a => .inc (.mem (.abs a)),
  .one (.nop1 0xEF#8)]

/-- Opcodes `$F0..$FF`. -/
def opcodeRowF : List Row := [
  .two fun off => .beq off,
  .two fun d => .sbc (.mem (.izy d)),
  .two fun d => .sbc (.mem (.izp d)),
  .one (.nop1 0xF3#8),
  .two fun d => .nopZpx 0xF4#8 d,
  .two fun d => .sbc (.mem (.zpx d)),
  .two fun d => .inc (.mem (.zpx d)),
  .one (.nop1 0xF7#8),
  .one .sed,
  .three fun a => .sbc (.mem (.aby a)),
  .one .plx,
  .one (.nop1 0xFB#8),
  .three fun a => .nopAbs 0xFC#8 a,
  .three fun a => .sbc (.mem (.abx a)),
  .three fun a => .inc (.mem (.abx a)),
  .one (.nop1 0xFF#8)]

/-- The opcode map with the default parameters (R107), in the order of the opcodes. -/
def opcodeRows : List Row :=
  opcodeRow0 ++ opcodeRow1 ++ opcodeRow2 ++ opcodeRow3 ++ opcodeRow4 ++ opcodeRow5 ++ opcodeRow6 ++ opcodeRow7 ++
  opcodeRow8 ++ opcodeRow9 ++ opcodeRowA ++ opcodeRowB ++ opcodeRowC ++ opcodeRowD ++ opcodeRowE ++ opcodeRowF

/-- The bit number of a Rockwell opcode: its bits 6:4 (R290). -/
def opcodeBit (b0 : Byte) : BitVec 3 := b0.extractLsb' 4 3

/-- The row of an opcode under a variant: the rows of R290 replace rows of the map when their parameter is set. -/
def opcodeRow (v : Variant) (b0 : Byte) : Row :=
  if v.bitops = .rockwell ∧ b0.extractLsb' 0 4 = 0x7#4 then
    if b0.msb then .two fun d => .smb (opcodeBit b0) d else .two fun d => .rmb (opcodeBit b0) d
  else if v.bitops = .rockwell ∧ b0.extractLsb' 0 4 = 0xF#4 then
    if b0.msb then .zprel fun d off => .bbs (opcodeBit b0) d off else .zprel fun d off => .bbr (opcodeBit b0) d off
  else if v.waiStp = .wdc ∧ b0 = 0xCB#8 then .one .wai
  else if v.waiStp = .wdc ∧ b0 = 0xDB#8 then .one .stp
  else opcodeRows.getD b0.toNat (.one (.nop1 b0))

/-- The instruction of three consecutive bytes, of which it uses as many as it is long.
Total: every opcode byte of every variant is an instruction (R117). -/
def decodeBytes (v : Variant) (b0 b1 b2 : Byte) : Instr := (opcodeRow v b0).build b1 b2

/-- The operand bytes of an effective-address mode, in memory order (R103). -/
def MemMode.operands : MemMode → List Byte
  | .zp d | .zpx d | .zpy d | .izx d | .izy d | .izp d => [d]
  | .abs a | .abx a | .aby a => [loByte a, hiByte a]

def Src.operands : Src → List Byte
  | .imm v => [v]
  | .mem m => m.operands

def Tgt.operands : Tgt → List Byte
  | .acc => []
  | .mem m => m.operands

/-- The operand bytes of an instruction, in memory order (R101, R103).
BRK has none: its signature byte is read and skipped by its operation (R101, R270). -/
def Instr.operands : Instr → List Byte
  | .lda src | .ldx src | .ldy src | .adc src | .sbc src | .cmp src | .cpx src | .cpy src
  | .and src | .ora src | .eor src | .bit src => src.operands
  | .sta m | .stx m | .sty m | .stz m | .tsb m | .trb m => m.operands
  | .inc t | .dec t | .asl t | .lsr t | .rol t | .ror t => t.operands
  | .jmpAbs a | .jmpInd a | .jmpIax a | .jsr a | .nopAbs _ a | .nopAbs8 a => [loByte a, hiByte a]
  | .bpl off | .bmi off | .bvc off | .bvs off | .bcc off | .bcs off | .bne off | .beq off | .bra off => [off]
  | .nopImm _ d | .nopZp d | .nopZpx _ d | .rmb _ d | .smb _ d => [d]
  | .bbr _ d off | .bbs _ d off => [d, off]
  | .tax | .tay | .txa | .tya | .tsx | .txs | .pha | .php | .phx | .phy | .pla | .plp | .plx | .ply => []
  | .inx | .iny | .dex | .dey | .clc | .sec | .cld | .sed | .cli | .sei | .clv => []
  | .rts | .brk | .rti | .nop | .nop1 _ | .halt | .wai | .stp => []

/-- The length of an instruction in bytes (R101, R130). -/
def Instr.length (i : Instr) : Nat := 1 + i.operands.length

/-- Why bytes are not an instruction: the only reason is that there are too few of them (R117). -/
inductive DecodeError where
  | noBytes
  | truncated (op : Byte)
  deriving DecidableEq, Repr

/-- The decoder on any bytes: the instruction at their head and the bytes after it. -/
def decode (v : Variant) : List Byte → Except DecodeError (Instr × List Byte)
  | [] => .error .noBytes
  | b0 :: rest =>
    let i := decodeBytes v b0 (rest.getD 0 0#8) (rest.getD 1 0#8)
    if rest.length + 1 < i.length then .error (.truncated b0) else .ok (i, rest.drop (i.length - 1))

/-- The opcode of an operand form in the "Encoding" line of a rule; none where the line has no such form. -/
def opcodeIn (line : List (Mode × Byte)) (m : Mode) : Option Byte := line.lookup m

/-- `base + $10 * n` (R111). -/
def bitOpcode (base : Byte) (n : BitVec 3) : Byte := base + (n.zeroExtend 8 <<< 4)

/-- The opcode byte of an instruction; none where its rule lists no such operand form. -/
def Instr.opcode : Instr → Option Byte
  | .lda src => opcodeIn [(.imm, 0xA9#8), (.zp, 0xA5#8), (.zpx, 0xB5#8), (.abs, 0xAD#8), (.abx, 0xBD#8), (.aby, 0xB9#8), (.izx, 0xA1#8), (.izy, 0xB1#8), (.izp, 0xB2#8)] src.mode
  | .ldx src => opcodeIn [(.imm, 0xA2#8), (.zp, 0xA6#8), (.zpy, 0xB6#8), (.abs, 0xAE#8), (.aby, 0xBE#8)] src.mode
  | .ldy src => opcodeIn [(.imm, 0xA0#8), (.zp, 0xA4#8), (.zpx, 0xB4#8), (.abs, 0xAC#8), (.abx, 0xBC#8)] src.mode
  | .adc src => opcodeIn [(.imm, 0x69#8), (.zp, 0x65#8), (.zpx, 0x75#8), (.abs, 0x6D#8), (.abx, 0x7D#8), (.aby, 0x79#8), (.izx, 0x61#8), (.izy, 0x71#8), (.izp, 0x72#8)] src.mode
  | .sbc src => opcodeIn [(.imm, 0xE9#8), (.zp, 0xE5#8), (.zpx, 0xF5#8), (.abs, 0xED#8), (.abx, 0xFD#8), (.aby, 0xF9#8), (.izx, 0xE1#8), (.izy, 0xF1#8), (.izp, 0xF2#8)] src.mode
  | .cmp src => opcodeIn [(.imm, 0xC9#8), (.zp, 0xC5#8), (.zpx, 0xD5#8), (.abs, 0xCD#8), (.abx, 0xDD#8), (.aby, 0xD9#8), (.izx, 0xC1#8), (.izy, 0xD1#8), (.izp, 0xD2#8)] src.mode
  | .cpx src => opcodeIn [(.imm, 0xE0#8), (.zp, 0xE4#8), (.abs, 0xEC#8)] src.mode
  | .cpy src => opcodeIn [(.imm, 0xC0#8), (.zp, 0xC4#8), (.abs, 0xCC#8)] src.mode
  | .and src => opcodeIn [(.imm, 0x29#8), (.zp, 0x25#8), (.zpx, 0x35#8), (.abs, 0x2D#8), (.abx, 0x3D#8), (.aby, 0x39#8), (.izx, 0x21#8), (.izy, 0x31#8), (.izp, 0x32#8)] src.mode
  | .ora src => opcodeIn [(.imm, 0x09#8), (.zp, 0x05#8), (.zpx, 0x15#8), (.abs, 0x0D#8), (.abx, 0x1D#8), (.aby, 0x19#8), (.izx, 0x01#8), (.izy, 0x11#8), (.izp, 0x12#8)] src.mode
  | .eor src => opcodeIn [(.imm, 0x49#8), (.zp, 0x45#8), (.zpx, 0x55#8), (.abs, 0x4D#8), (.abx, 0x5D#8), (.aby, 0x59#8), (.izx, 0x41#8), (.izy, 0x51#8), (.izp, 0x52#8)] src.mode
  | .bit src => opcodeIn [(.zp, 0x24#8), (.abs, 0x2C#8), (.zpx, 0x34#8), (.abx, 0x3C#8), (.imm, 0x89#8)] src.mode
  | .sta m => opcodeIn [(.zp, 0x85#8), (.zpx, 0x95#8), (.abs, 0x8D#8), (.abx, 0x9D#8), (.aby, 0x99#8), (.izx, 0x81#8), (.izy, 0x91#8), (.izp, 0x92#8)] m.mode
  | .stx m => opcodeIn [(.zp, 0x86#8), (.zpy, 0x96#8), (.abs, 0x8E#8)] m.mode
  | .sty m => opcodeIn [(.zp, 0x84#8), (.zpx, 0x94#8), (.abs, 0x8C#8)] m.mode
  | .stz m => opcodeIn [(.zp, 0x64#8), (.zpx, 0x74#8), (.abs, 0x9C#8), (.abx, 0x9E#8)] m.mode
  | .inc t => opcodeIn [(.zp, 0xE6#8), (.zpx, 0xF6#8), (.abs, 0xEE#8), (.abx, 0xFE#8), (.acc, 0x1A#8)] t.mode
  | .dec t => opcodeIn [(.zp, 0xC6#8), (.zpx, 0xD6#8), (.abs, 0xCE#8), (.abx, 0xDE#8), (.acc, 0x3A#8)] t.mode
  | .asl t => opcodeIn [(.acc, 0x0A#8), (.zp, 0x06#8), (.zpx, 0x16#8), (.abs, 0x0E#8), (.abx, 0x1E#8)] t.mode
  | .lsr t => opcodeIn [(.acc, 0x4A#8), (.zp, 0x46#8), (.zpx, 0x56#8), (.abs, 0x4E#8), (.abx, 0x5E#8)] t.mode
  | .rol t => opcodeIn [(.acc, 0x2A#8), (.zp, 0x26#8), (.zpx, 0x36#8), (.abs, 0x2E#8), (.abx, 0x3E#8)] t.mode
  | .ror t => opcodeIn [(.acc, 0x6A#8), (.zp, 0x66#8), (.zpx, 0x76#8), (.abs, 0x6E#8), (.abx, 0x7E#8)] t.mode
  | .tsb m => opcodeIn [(.zp, 0x04#8), (.abs, 0x0C#8)] m.mode
  | .trb m => opcodeIn [(.zp, 0x14#8), (.abs, 0x1C#8)] m.mode
  | .tax => some 0xAA#8
  | .tay => some 0xA8#8
  | .txa => some 0x8A#8
  | .tya => some 0x98#8
  | .tsx => some 0xBA#8
  | .txs => some 0x9A#8
  | .pha => some 0x48#8
  | .php => some 0x08#8
  | .phx => some 0xDA#8
  | .phy => some 0x5A#8
  | .pla => some 0x68#8
  | .plp => some 0x28#8
  | .plx => some 0xFA#8
  | .ply => some 0x7A#8
  | .inx => some 0xE8#8
  | .iny => some 0xC8#8
  | .dex => some 0xCA#8
  | .dey => some 0x88#8
  | .clc => some 0x18#8
  | .sec => some 0x38#8
  | .cld => some 0xD8#8
  | .sed => some 0xF8#8
  | .cli => some 0x58#8
  | .sei => some 0x78#8
  | .clv => some 0xB8#8
  | .rts => some 0x60#8
  | .brk => some 0x00#8
  | .rti => some 0x40#8
  | .bpl _ => some 0x10#8
  | .bmi _ => some 0x30#8
  | .bvc _ => some 0x50#8
  | .bvs _ => some 0x70#8
  | .bcc _ => some 0x90#8
  | .bcs _ => some 0xB0#8
  | .bne _ => some 0xD0#8
  | .beq _ => some 0xF0#8
  | .bra _ => some 0x80#8
  | .jmpAbs _ => some 0x4C#8
  | .jmpInd _ => some 0x6C#8
  | .jmpIax _ => some 0x7C#8
  | .jsr _ => some 0x20#8
  | .nop => some 0xEA#8
  | .nop1 op => some op
  | .nopImm op _ => some op
  | .nopZp _ => some 0x44#8
  | .nopZpx op _ => some op
  | .nopAbs op _ => some op
  | .nopAbs8 _ => some 0x5C#8
  | .halt => some 0x02#8
  | .rmb n _ => some (bitOpcode 0x07#8 n)
  | .smb n _ => some (bitOpcode 0x87#8 n)
  | .bbr n _ _ => some (bitOpcode 0x0F#8 n)
  | .bbs n _ _ => some (bitOpcode 0x8F#8 n)
  | .wai => some 0xCB#8
  | .stp => some 0xDB#8

/-- The bytes of an instruction (R101); none where its rule lists no such operand form. -/
def encode (i : Instr) : Option (List Byte) := i.opcode.map (· :: i.operands)

/-- The instruction the decoder reads from an instruction whose bits are `w`, bit 0 the least significant bit of the first
byte, under the parameters of `opcode_table.json`. -/
def decodeTableWord (nbits w : Nat) : Option Instr :=
  let bits := w % 2 ^ nbits
  match decode .table [byteOf bits 0, byteOf bits 1, byteOf bits 2] with
  | .ok (i, _) => some i
  | .error _ => none

end Sys2Proof
end

