-- ==== Sys2Proof/Machine/Memory.lean ====
section
/-! DEFINITION. Machine/Memory.lean: an array of bytes as a list of cells in one canonical form.
SysRAM and both ROM images are held so (R38). -/

namespace Sys2Proof.Machine

/-- The cells of an array that differ from what an unlisted index reads as, at strictly rising indexes. -/
abbrev Memory := List Host.Cell

/-- What SysRAM held after the last reset: the values of its unlisted addresses (R340, R343).
`free` names the contents that the reset numbered `epoch` left (log entry 2). -/
inductive RamFill where
  | zero
  | free (epoch : Nat)
  deriving DecidableEq, Repr

/-- The byte an unlisted address of SysRAM reads as. -/
def RamFill.byte : RamFill → Nat → Byte
  | .zero, _ => 0x00#8
  | .free epoch, a => Config.randomRamByte epoch a

/-- The byte an unlisted offset of a ROM image reads as: images are zero-padded (R76). -/
def romBlank (_ : Nat) : Byte := 0x00#8

/-- The byte at an index. -/
def Memory.read (blank : Nat → Byte) : Memory → Nat → Byte
  | [], a => blank a
  | (k, v) :: rest, a => if k = a then v else Memory.read blank rest a

/-- The array without its cell at an index. -/
def Memory.erase (m : Memory) (a : Nat) : Memory := m.filter fun c => c.1 != a

/-- The array with one more cell, before the first cell of a greater index. -/
def Memory.insert : Memory → Nat → Byte → Memory
  | [], a, v => [(a, v)]
  | (k, u) :: rest, a, v => if a < k then (a, v) :: (k, u) :: rest else (k, u) :: Memory.insert rest a v

/-- The array after a byte is stored; a byte that an unlisted index reads as is stored by listing nothing. -/
def Memory.write (blank : Nat → Byte) (m : Memory) (a : Nat) (v : Byte) : Memory :=
  if v = blank a then m.erase a else (m.erase a).insert a v

/-- The canonical form from an index on. -/
def Memory.wfFrom (blank : Nat → Byte) (size : Nat) : Nat → Memory → Bool
  | _, [] => true
  | low, (a, v) :: rest => decide (low ≤ a) && decide (a < size) && v != blank a && Memory.wfFrom blank size (a + 1) rest

/-- The canonical form of an array of `size` bytes: indexes strictly rise and lie in the array, and no cell holds what an
unlisted index reads as. -/
def Memory.wf (blank : Nat → Byte) (size : Nat) (m : Memory) : Bool := Memory.wfFrom blank size 0 m

end Sys2Proof.Machine
end

