-- ==== Sys2Proof/Machine/State.lean ====
section
/-! DEFINITION. Machine/State.lean: the state of the machine as plain data, its stop reasons, and the state after reset. -/

namespace Sys2Proof.Machine

/-- The run state `RUN` (R39); `waiting` and `stopped` are entered only by WAI and STP (R295, R296). -/
inductive Run where
  | boot
  | running
  | halted
  | waiting
  | stopped
  deriving DecidableEq, Repr

/-- An event of the bus log (R41). -/
inductive BusEvent where
  | read (a : Addr) (v : Byte)
  | write (a : Addr) (v : Byte)
  | idle (n : Nat)
  deriving DecidableEq, Repr

/-- What the outside world did up to one instruction boundary: the level of `IRQ_LINE` there, whether an `NMI_EDGE` came
since the boundary before, and whether the host requested a stop (R310, R325). -/
structure Input where
  irqLine : Bool
  nmiEdge : Bool
  stop : Bool
  deriving DecidableEq, Repr

/-- The state of the machine (files 10, 20, 60 and 70 of the spec; INVENTORY.md, State). -/
structure State where
  /-- The accumulator (R21). -/
  a : Byte
  /-- The index register X (R22). -/
  x : Byte
  /-- The index register Y (R23). -/
  y : Byte
  /-- The stack pointer (R24). -/
  sp : Byte
  /-- The program counter (R25). -/
  pc : Addr
  /-- The status register, all eight bits as stored (R26 to R28). -/
  p : Byte
  /-- SysRAM: the cells that differ from `ramFill`, by address (R38). -/
  ram : Memory
  /-- What the unlisted addresses of SysRAM hold: the contents the last reset left (R340, R343). -/
  ramFill : RamFill
  /-- The run state `RUN` (R39). -/
  run : Run
  /-- The cycle counter `CYC` (R40). -/
  cyc : Nat
  /-- The bus log `LOG`, newest event first; `State.busLog` is the log in the spec's order (R41). -/
  log : List BusEvent
  /-- The level of the IRQ input as last sampled (R42, R311). -/
  irqLine : Bool
  /-- The latch `NMI_pending` (R42, R312). -/
  nmiPending : Bool
  /-- The host's flag "stop requested" (R325). -/
  stopRequested : Bool
  /-- The inputs of the coming boundaries, the next boundary's first (log entry 6). -/
  inputs : List Input
  /-- The model's own field: how many free values have been drawn (log entry 1). -/
  draws : Nat
  /-- The parameters of the run, the ROM images among them (R7, R43). -/
  params : Params
  deriving DecidableEq, Repr

/-- Reasons for the machine to stop with a fault: none.
The core raises no synchronous exception, every opcode terminates and every bus access succeeds (R300), and the bus error
that R302 reserves is not defined and must not be added (U11). -/
inductive Fault where
  deriving DecidableEq, Repr

/-- Reasons for a refusal. -/
inductive Refusal where
  /-- Raised by an arm of `exec` whose instruction has no meaning yet, which no arm is; safe. -/
  | notModelled (mnemonic : String)
  deriving DecidableEq, Repr

/-- The log in the spec's order, oldest event first (R41). -/
def State.busLog (s : State) : List BusEvent := s.log.reverse

/-- A byte of the ROM0 image (R61, R76). -/
def rom0Byte (p : Params) (offset : Nat) : Byte := Memory.read romBlank p.rom0 offset

/-- The state right after the reset sequence of a run with the given parameters, from power-on (R44, R340, R342). -/
def State.afterReset (params : Params) : State where
  a := params.initA
  x := params.initX
  y := params.initY
  sp := params.initSp
  pc := mkAddr (rom0Byte params 0x1FFD) (rom0Byte params 0x1FFC)
  p := 0x20#8
  ram := []
  ramFill := match params.ramInit with | .zero => .zero | .random => .free 0
  run := .running
  cyc := 2
  log := [.read 0xFFFD#16 (rom0Byte params 0x1FFD), .read 0xFFFC#16 (rom0Byte params 0x1FFC)]
  irqLine := false
  nmiPending := false
  stopRequested := false
  inputs := []
  draws := match params.ramInit with | .zero => 0 | .random => 1
  params := params

/-- The machine at power-on, in `Boot`, before the reset sequence (R39, R340).
The sequence overwrites PC, P, SysRAM, CYC and LOG; SP, A, X and Y hold the parameters `INIT_*` (R43, D8).
DESIGN CHOICE: what PC, P and SysRAM hold before the sequence is not in the spec; here PC is `$0000`, P is `$20` and SysRAM is
all `$00`, whatever `RAM_INIT` says, and no request is active; no instruction runs in this state (log entry 10; unsafe). -/
def State.powerOn (params : Params) : State where
  a := params.initA
  x := params.initX
  y := params.initY
  sp := params.initSp
  pc := 0x0000#16
  p := 0x20#8
  ram := []
  ramFill := .zero
  run := .boot
  cyc := 0
  log := []
  irqLine := false
  nmiPending := false
  stopRequested := false
  inputs := []
  draws := 0
  params := params

/-- The machine right after reset, with the parameters of `Params.standard`. -/
def State.reset : State := State.afterReset Params.standard

end Sys2Proof.Machine
end

