-- ==== Sys2Proof/Machine/Flags.lean ====
section
/-! DEFINITION. Machine/Flags.lean: the bits of P (R26 to R36), its pushed and restored images (R29), and every flag
computation: setZN, the ALU, the compares, the shifts and the bit test. -/

namespace Sys2Proof.Machine

/-- Flag C is bit 0 of P (R26, R31). -/
def State.flagC (s : State) : Bool := s.p.getLsbD 0
/-- Flag Z is bit 1 of P (R26, R32). -/
def State.flagZ (s : State) : Bool := s.p.getLsbD 1
/-- Flag I is bit 2 of P (R26, R33). -/
def State.flagI (s : State) : Bool := s.p.getLsbD 2
/-- Flag D is bit 3 of P (R26, R34). -/
def State.flagD (s : State) : Bool := s.p.getLsbD 3
/-- The stored bit B is bit 4 of P (R26, R28). -/
def State.flagB (s : State) : Bool := s.p.getLsbD 4
/-- Flag V is bit 6 of P (R26, R35). -/
def State.flagV (s : State) : Bool := s.p.getLsbD 6
/-- Flag N is bit 7 of P (R26, R36). -/
def State.flagN (s : State) : Bool := s.p.getLsbD 7

/-- A status byte with one bit written and the others kept. -/
def putBit (p : Byte) (n : Nat) (b : Bool) : Byte :=
  if b then p ||| 1#8 <<< n else p &&& ~~~(1#8 <<< n)

/-- `setZN(v)` on a status byte (R30). -/
def putZN (p v : Byte) : Byte := putBit (putBit p 1 (v == 0#8)) 7 v.msb

/-- The copy of P that is pushed: bits 4 and 5 set by PHP and BRK, bit 4 clear and bit 5 set by IRQ and NMI entry (R29). -/
def pushedStatus (bSet : Bool) (p : Byte) : Byte :=
  if bSet then p ||| 0x30#8 else p &&& 0xEF#8 ||| 0x20#8

/-- The value of P that PLP and RTI make of a popped byte (R29). -/
def restoredStatus (popped : Byte) : Byte := popped ||| 0x20#8

/-- What the ALU returns (R215). -/
structure AluResult where
  result : Byte
  c : Bool
  v : Bool
  z : Bool
  n : Bool
  deriving DecidableEq, Repr

/-- `adc(a, b, c)` (R215). -/
def aluAdc (a b : Byte) (c : Bool) : AluResult :=
  let sum := a.toNat + b.toNat + c.toNat
  let result := BitVec.ofNat 8 sum
  { result := result
    c := decide (sum > 0xFF)
    v := (a ^^^ result) &&& (b ^^^ result) &&& 0x80#8 != 0#8
    z := result == 0#8
    n := result.getLsbD 7 }

/-- `sbc(a, b, c)` is `adc` with the operand complemented (R216). -/
def aluSbc (a b : Byte) (c : Bool) : AluResult := aluAdc a (b ^^^ 0xFF#8) c

/-- The status byte after ADC or SBC: C, V, Z and N are written (R210, R211). -/
def putAlu (p : Byte) (r : AluResult) : Byte :=
  putBit (putBit (putBit (putBit p 0 r.c) 6 r.v) 1 r.z) 7 r.n

/-- The status byte after a compare of a register with a byte: `t <- reg + (m ^ $FF) + 1`, C from `t > $FF`, Z and N from
`t & $FF` (R212 to R214). -/
def putCompare (p reg m : Byte) : Byte :=
  let t := reg.toNat + (m ^^^ 0xFF#8).toNat + 1
  putZN (putBit p 0 (decide (t > 0xFF))) (BitVec.ofNat 8 t)

/-- The result of a shift or rotate and the bit it moves into C. -/
structure ShiftResult where
  result : Byte
  c : Bool
  deriving DecidableEq, Repr

/-- ASL of a byte (R224). -/
def shiftAsl (v : Byte) : ShiftResult := ⟨v <<< 1, v.getLsbD 7⟩
/-- LSR of a byte (R225). -/
def shiftLsr (v : Byte) : ShiftResult := ⟨v >>> 1, v.getLsbD 0⟩
/-- ROL of a byte through C (R226). -/
def shiftRol (v : Byte) (c : Bool) : ShiftResult := ⟨v <<< 1 ||| (BitVec.ofBool c).zeroExtend 8, v.getLsbD 7⟩
/-- ROR of a byte through C (R227). -/
def shiftRor (v : Byte) (c : Bool) : ShiftResult := ⟨v >>> 1 ||| (BitVec.ofBool c).zeroExtend 8 <<< 7, v.getLsbD 0⟩

/-- The status byte after a shift or rotate: C from the bit shifted out, Z and N from the result (R224 to R227). -/
def putShift (p : Byte) (r : ShiftResult) : Byte := putZN (putBit p 0 r.c) r.result

/-- Flag Z of the bit tests: `(A & M) == 0` (R32, R223, R228, R229). -/
def putTest (p a m : Byte) : Byte := putBit p 1 (a &&& m == 0#8)

/-- The status byte after BIT on memory: Z from `A & M`, V and N from bits 6 and 7 of M (R223). -/
def putBitTest (p a m : Byte) : Byte := putBit (putBit (putTest p a m) 6 (m.getLsbD 6)) 7 (m.getLsbD 7)

end Sys2Proof.Machine
end

