-- ==== Sys2Proof/Machine/Ops.lean ====
section
/-! DEFINITION. Machine/Ops.lean: the named operations on the state: register writes, the bus (file 20), the stack
controller, taking an interrupt and returning from one (files 48 and 60), and the reset sequence (file 70). -/

namespace Sys2Proof.Machine

/-- The outcome of an instruction or a step. -/
abbrev Out := Host.Outcome State Fault Refusal

/-! ### Registers -/

def State.setA (s : State) (v : Byte) : State := { s with a := v }
def State.setX (s : State) (v : Byte) : State := { s with x := v }
def State.setY (s : State) (v : Byte) : State := { s with y := v }
def State.setSp (s : State) (v : Byte) : State := { s with sp := v }
def State.setPc (s : State) (v : Addr) : State := { s with pc := v }
def State.setP (s : State) (v : Byte) : State := { s with p := v }
def State.setRun (s : State) (r : Run) : State := { s with run := r }

/-- `setZN(v)` on P (R30). -/
def State.setZN (s : State) (v : Byte) : State := s.setP (putZN s.p v)

/-- One bit of P written. -/
def State.putFlag (s : State) (n : Nat) (b : Bool) : State := s.setP (putBit s.p n b)

/-! ### The bus -/

/-- What stands at an address, by the top nibble of the address (R61). -/
inductive Region where
  | sysRam
  | ioController
  | serial0
  | serial1
  | unmapped
  | rom1
  | rom0
  deriving DecidableEq, Repr

/-- The address decode (R61). -/
def region (a : Addr) : Region :=
  match (a.extractLsb' 12 4).toNat with
  | 0x8 => .ioController
  | 0x9 => .serial0
  | 0xA => .serial1
  | 0xB => .unmapped
  | 0xC | 0xD => .rom1
  | 0xE | 0xF => .rom0
  | _ => .sysRam

/-- The byte stored at an address: none in `$8000-$BFFF`, which holds no state (R38, R61). -/
def State.stored (s : State) (a : Addr) : Option Byte :=
  match region a with
  | .sysRam => some (s.ram.read s.ramFill.byte a.toNat)
  | .rom1 => some (Memory.read romBlank s.params.rom1 (a &&& 0x1FFF#16).toNat)
  | .rom0 => some (Memory.read romBlank s.params.rom0 (a &&& 0x1FFF#16).toNat)
  | .ioController | .serial0 | .serial1 | .unmapped => none

/-- The members of the parameter `OPEN_BUS`. -/
def OpenBus.members : OpenBus → List Byte
  | .fixed b => [b]
  | .oneOf first others => first :: others

/-- The `n`-th placeholder draw: any member of `OPEN_BUS`, free of the draws before it (R64; log entry 1). -/
def OpenBus.draw (o : OpenBus) (n : Nat) : Byte :=
  match o with
  | .fixed b => b
  | .oneOf first others => (first :: others).getD (Config.openBusDraw n % (others.length + 1)) first

/-- The value a read of an address returns now (R61, R64). -/
def State.busByte (s : State) (a : Addr) : Byte :=
  match s.stored a with
  | some v => v
  | none => OpenBus.draw s.params.openBus s.draws

/-- The state after one bus read: a cycle passes and the log records the read; a placeholder read uses up a draw (R62, R64). -/
def State.afterRead (s : State) (a : Addr) : State :=
  { s with
    cyc := s.cyc + 1
    log := .read a (s.busByte a) :: s.log
    draws := if (s.stored a).isSome then s.draws else s.draws + 1 }

/-- `MemRead(addr, 1)` (R62). -/
def State.memRead (s : State) (a : Addr) : Byte × State := (s.busByte a, s.afterRead a)

/-- `_ <- MemRead(addr, 1)`: a dummy read (R12, R62). -/
def State.dummyRead (s : State) (a : Addr) : State := (s.memRead a).2

/-- `MemWrite(addr, 1, v)`: only SysRAM stores the byte (R63). -/
def State.memWrite (s : State) (a : Addr) (v : Byte) : State :=
  { s with
    cyc := s.cyc + 1
    log := .write a v :: s.log
    ram := if region a = .sysRam then s.ram.write s.ramFill.byte a.toNat v else s.ram }

/-- `Idle(n)` (R65). -/
def State.idle (s : State) (n : Nat) : State := { s with cyc := s.cyc + n, log := .idle n :: s.log }

/-- `Fetch8()` (R66). -/
def State.fetch8 (s : State) : Byte × State :=
  let r := s.memRead s.pc
  (r.1, r.2.setPc (s.pc + 1#16))

/-- `Read16(a0, a1)`: the low byte first (R67). -/
def State.read16 (s : State) (a0 a1 : Addr) : Addr × State :=
  let lo := s.memRead a0
  let hi := lo.2.memRead a1
  (mkAddr hi.1 lo.1, hi.2)

/-! ### The stack controller -/

/-- `Push(v)` (R68). -/
def State.push (s : State) (v : Byte) : State :=
  (s.memWrite (stackAddr s.sp) v).setSp (s.sp - 1#8)

/-- `Pop()` (R69). -/
def State.pop (s : State) : Byte × State :=
  (s.setSp (s.sp + 1#8)).memRead (stackAddr (s.sp + 1#8))

/-- The two bytes of a PC are pushed high byte first (R71). -/
def State.pushAddr (s : State) (a : Addr) : State := (s.push (hiByte a)).push (loByte a)

/-- The two bytes of a PC are popped low byte first (R71). -/
def State.popAddr (s : State) : Addr × State :=
  let lo := s.pop
  let hi := lo.2.pop
  (mkAddr hi.1 lo.1, hi.2)

/-- The dummy read at `$0100 | SP` before a pop (R69, R189). -/
def State.dummyStack (s : State) : State := s.dummyRead (stackAddr s.sp)

/-! ### Exceptions -/

/-- The vectors' addresses (R304). -/
def nmiVector : Addr := 0xFFFA#16
def resetVector : Addr := 0xFFFC#16
def irqVector : Addr := 0xFFFE#16

/-- Taking an exception, the part BRK and interrupt entry share: PC and P are pushed, P with bit 4 as the kind of entry says;
I is set, D cleared if the parameter says so; PC is loaded from the vector (R270, R314). -/
def State.takeException (s : State) (vector : Addr) (bSet : Bool) : State :=
  let saved := (s.pushAddr s.pc).push (pushedStatus bSet s.p)
  let masked := saved.setP (putBit saved.p 2 true)
  let cleared := if s.params.intClearsD then masked.setP (putBit masked.p 3 false) else masked
  let target := cleared.read16 vector (vector + 1#16)
  target.2.setPc target.1

/-- `InterruptEntry(vec)`: two dummy reads of the opcode that will not execute now, then the shared part with B = 0 (R314). -/
def State.interruptEntry (s : State) (vector : Addr) : State :=
  ((s.dummyRead s.pc).dummyRead s.pc).takeException vector false

/-- The return from an exception: P, then PC low, then PC high are popped (R271, R316). -/
def State.returnFromException (s : State) : State :=
  let p := s.pop
  let target := (p.2.setP (restoredStatus p.1)).popAddr
  target.2.setPc target.1

/-- The interrupt part of the poll at a boundary: NMI before IRQ, and the NMI latch is cleared when it is taken (R313, R315). -/
def State.poll (s : State) : State :=
  if s.nmiPending then { s with nmiPending := false }.interruptEntry nmiVector
  else if s.irqLine && !s.flagI then s.interruptEntry irqVector
  else s

/-! ### The outside world and reset -/

/-- The inputs of one boundary are sampled: IRQ is a level, an NMI edge sets the latch, a stop request stays (R311, R312,
R325). With no input left the level stays as it is and nothing else comes (log entry 6). -/
def State.sampleInputs (s : State) : State :=
  match s.inputs with
  | [] => s
  | i :: rest =>
    { s with
      inputs := rest
      irqLine := i.irqLine
      nmiPending := s.nmiPending || i.nmiEdge
      stopRequested := s.stopRequested || i.stop }

/-- The reset sequence from `Boot` (R340).
SP, A, X and Y are not written; the interrupt requests are inactive after it (R44), and the stop request is cleared (log entry 10). -/
def State.resetSequence (s : State) : State :=
  let cleared : State :=
    { s with
      ram := []
      ramFill := match s.params.ramInit with | .zero => .zero | .random => .free s.draws
      draws := match s.params.ramInit with | .zero => s.draws | .random => s.draws + 1
      cyc := 0
      log := []
      irqLine := false
      nmiPending := false
      stopRequested := false
      p := 0x20#8 }
  let target := cleared.read16 resetVector (resetVector + 1#16)
  (target.2.setPc target.1).setRun .running

/-- A reset request made during a run: `RUN <- Boot`, so that the next step is the reset sequence (R341, D5). -/
def State.requestReset (s : State) : State := s.setRun .boot

end Sys2Proof.Machine
end

