-- ==== Sys2Proof/Machine/Operands.lean ====
section
/-! DEFINITION. Machine/Operands.lean: the addressing modes with their bus sequences, and the operation classes (file 40).
Every routine starts after the instruction's own bytes have been fetched. -/

namespace Sys2Proof.Machine

/-- The operation class of an access through an effective address (R145). -/
inductive Access where
  | read
  | write
  | rmw
  deriving DecidableEq, Repr

/-- A 16-bit base plus an index: the dummy read at the uncorrected address is made by the read class when a page is crossed
and by the other classes always (R138, R140, R142). -/
def indexed (base : Addr) (index : Byte) (cls : Access) (s : State) : Addr × State :=
  let ea := base + index.zeroExtend 16
  (ea, if cls ≠ .read ∨ crosses base ea then s.dummyRead (uncorrected base ea) else s)

/-- A pointer in the zero page; its second byte is at the next address of page zero (R67, R71). -/
def zeroPagePointer (d : Byte) (s : State) : Addr × State := s.read16 (zeroPage d) (zeroPage (d + 1#8))

/-- The effective address of a mode and the state after the accesses that compute it (R135 to R141). -/
def effAddr (m : MemMode) (cls : Access) (s : State) : Addr × State :=
  match m with
  | .zp d => (zeroPage d, s)
  | .zpx d => (zeroPage (d + s.x), s.dummyRead (zeroPage d))
  | .zpy d => (zeroPage (d + s.y), s.dummyRead (zeroPage d))
  | .abs a => (a, s)
  | .abx a => indexed a s.x cls s
  | .aby a => indexed a s.y cls s
  | .izx d => zeroPagePointer (d + s.x) (s.dummyRead (zeroPage d))
  | .izy d => let base := zeroPagePointer d s; indexed base.1 s.y cls base.2
  | .izp d => zeroPagePointer d s

/-- The read class: one read at the effective address (R145); an immediate operand is the fetched byte itself (R133). -/
def readSrc (src : Src) (s : State) : Byte × State :=
  match src with
  | .imm v => (v, s)
  | .mem m => let ea := effAddr m .read s; ea.2.memRead ea.1

/-- The write class: one write at the effective address (R145). -/
def writeMem (m : MemMode) (v : Byte) (s : State) : State :=
  let ea := effAddr m .write s
  ea.2.memWrite ea.1 v

/-- The rmw class: a read, a dummy read and the write of `f` of the first read, all at the effective address (R145).
The first component is the byte that was read. -/
def modifyMem (m : MemMode) (f : Byte → Byte) (s : State) : Byte × State :=
  let ea := effAddr m .rmw s
  let v := ea.2.memRead ea.1
  (v.1, (v.2.dummyRead ea.1).memWrite ea.1 (f v.1))

/-- The operand of a shift, an increment or a decrement: the accumulator after the dummy read of PC (R132), or a byte of
memory in the rmw class. The first component is the old operand. -/
def modifyTgt (t : Tgt) (f : Byte → Byte) (s : State) : Byte × State :=
  match t with
  | .acc => (s.a, (s.dummyRead s.pc).setA (f s.a))
  | .mem m => modifyMem m f s

/-- The dummy read of an implied instruction: the byte at PC, PC unchanged (R131). -/
def State.implied (s : State) : State := s.dummyRead s.pc

/-- The push sequence after the opcode fetch (R188). -/
def State.pushSequence (s : State) (v : Byte) : State := s.implied.push v

/-- The pull sequence after the opcode fetch (R189). -/
def State.pullSequence (s : State) : Byte × State := s.implied.dummyStack.pop

/-- The branch sequence after the fetch of the offset (R264). -/
def State.branch (s : State) (cond : Bool) (off : Byte) : State :=
  if cond then
    let target := s.pc + sext16 off
    let next := s.dummyRead s.pc
    (if crosses s.pc target then next.dummyRead (uncorrected s.pc target) else next).setPc target
  else s

end Sys2Proof.Machine
end

