-- ==== Sys2Proof/Machine/Arithmetic.lean ====
section
/-! DEFINITION. Machine/Arithmetic.lean: add, subtract and compare (file 44). Flag D is not consulted (R34, R217). -/

namespace Sys2Proof.Machine

/-- ADC (R210). -/
def execAdc (src : Src) (s : State) : Out :=
  let m := readSrc src s
  let r := aluAdc s.a m.1 s.flagC
  .next ((m.2.setA r.result).setP (putAlu s.p r))

/-- SBC (R211). -/
def execSbc (src : Src) (s : State) : Out :=
  let m := readSrc src s
  let r := aluSbc s.a m.1 s.flagC
  .next ((m.2.setA r.result).setP (putAlu s.p r))

/-- CMP (R212). -/
def execCmp (src : Src) (s : State) : Out :=
  let m := readSrc src s
  .next (m.2.setP (putCompare s.p s.a m.1))

/-- CPX (R213). -/
def execCpx (src : Src) (s : State) : Out :=
  let m := readSrc src s
  .next (m.2.setP (putCompare s.p s.x m.1))

/-- CPY (R214). -/
def execCpy (src : Src) (s : State) : Out :=
  let m := readSrc src s
  .next (m.2.setP (putCompare s.p s.y m.1))

end Sys2Proof.Machine
end

