-- ==== Sys2Proof/Machine/BitOps.lean ====
section
/-! DEFINITION. Machine/BitOps.lean: the parameter-gated instructions (file 49). -/

namespace Sys2Proof.Machine

/-- RMBn (R291). -/
def execRmb (n : BitVec 3) (d : Byte) (s : State) : Out :=
  .next (modifyMem (.zp d) (fun v => v &&& ~~~(1#8 <<< n.toNat)) s).2

/-- SMBn (R293). -/
def execSmb (n : BitVec 3) (d : Byte) (s : State) : Out :=
  .next (modifyMem (.zp d) (fun v => v ||| 1#8 <<< n.toNat) s).2

/-- BBRn and BBSn after the fetch of the zero-page address: the byte is read twice, the offset byte is fetched, and the branch
is taken when bit `n` is as wanted (R292, R294). The fetch returns `off`, the byte the decoder saw there. -/
def State.bitBranch (s : State) (wanted : Bool) (n : BitVec 3) (d off : Byte) : State :=
  let v := s.memRead (zeroPage d)
  ((v.2.dummyRead (zeroPage d)).fetch8.2).branch (v.1.getLsbD n.toNat == wanted) off

/-- BBRn (R292). -/
def execBbr (n : BitVec 3) (d off : Byte) (s : State) : Out := .next (s.bitBranch false n d off)

/-- BBSn (R294). -/
def execBbs (n : BitVec 3) (d off : Byte) (s : State) : Out := .next (s.bitBranch true n d off)

/-- WAI: two dummy reads, then the core waits (R295). -/
def execWai (s : State) : Out := .next (((s.dummyRead s.pc).dummyRead s.pc).setRun .waiting)

/-- STP: two dummy reads, then the core is stopped (R296). -/
def execStp (s : State) : Out := .next (((s.dummyRead s.pc).dummyRead s.pc).setRun .stopped)

end Sys2Proof.Machine
end

