-- ==== Sys2Proof/Machine/FlagOps.lean ====
section
/-! DEFINITION. Machine/FlagOps.lean: the flag operations (file 46). -/

namespace Sys2Proof.Machine

/-- CLC (R240). -/
def execClc (s : State) : Out := .next (s.implied.putFlag 0 false)
/-- SEC (R241). -/
def execSec (s : State) : Out := .next (s.implied.putFlag 0 true)
/-- CLD (R242). -/
def execCld (s : State) : Out := .next (s.implied.putFlag 3 false)
/-- SED (R243). -/
def execSed (s : State) : Out := .next (s.implied.putFlag 3 true)
/-- CLI (R244). -/
def execCli (s : State) : Out := .next (s.implied.putFlag 2 false)
/-- SEI (R245). -/
def execSei (s : State) : Out := .next (s.implied.putFlag 2 true)
/-- CLV (R246). -/
def execClv (s : State) : Out := .next (s.implied.putFlag 6 false)

end Sys2Proof.Machine
end

