-- ==== Sys2Proof/Machine/IncDec.lean ====
section
/-! DEFINITION. Machine/IncDec.lean: increment and decrement (file 43). -/

namespace Sys2Proof.Machine

/-- INC (R200). -/
def execInc (t : Tgt) (s : State) : Out :=
  let m := modifyTgt t (· + 1#8) s
  .next (m.2.setZN (m.1 + 1#8))

/-- DEC (R201). -/
def execDec (t : Tgt) (s : State) : Out :=
  let m := modifyTgt t (· - 1#8) s
  .next (m.2.setZN (m.1 - 1#8))

/-- INX (R202). -/
def execInx (s : State) : Out := .next ((s.implied.setX (s.x + 1#8)).setZN (s.x + 1#8))

/-- INY (R203). -/
def execIny (s : State) : Out := .next ((s.implied.setY (s.y + 1#8)).setZN (s.y + 1#8))

/-- DEX (R204). -/
def execDex (s : State) : Out := .next ((s.implied.setX (s.x - 1#8)).setZN (s.x - 1#8))

/-- DEY (R205). -/
def execDey (s : State) : Out := .next ((s.implied.setY (s.y - 1#8)).setZN (s.y - 1#8))

end Sys2Proof.Machine
end

