-- ==== Sys2Proof/Machine/Jumps.lean ====
section
/-! DEFINITION. Machine/Jumps.lean: jumps, subroutine call and return, branches (file 47).
PC is the address of the next instruction: the instruction's own bytes have been fetched. -/

namespace Sys2Proof.Machine

/-- JMP abs (R250). -/
def execJmpAbs (a : Addr) (s : State) : Out := .next (s.setPc a)

/-- JMP (abs): a dummy read of the third instruction byte, then the two pointer bytes (R251). -/
def execJmpInd (a : Addr) (s : State) : Out :=
  let target := (s.dummyRead (s.pc - 1#16)).read16 a (a + 1#16)
  .next (target.2.setPc target.1)

/-- JMP (abs,X) (R252). -/
def execJmpIax (a : Addr) (s : State) : Out :=
  let ptr := a + s.x.zeroExtend 16
  let target := (s.dummyRead (s.pc - 1#16)).read16 ptr (ptr + 1#16)
  .next (target.2.setPc target.1)

/-- JSR: the address of its own third byte is pushed (R253). -/
def execJsr (a : Addr) (s : State) : Out :=
  .next ((s.dummyStack.pushAddr (s.pc - 1#16)).setPc a)

/-- RTS: the popped address plus 1 (R254). -/
def execRts (s : State) : Out :=
  let back := s.implied.dummyStack.popAddr
  .next ((back.2.dummyRead back.1).setPc (back.1 + 1#16))

/-- BPL (R255). -/
def execBpl (off : Byte) (s : State) : Out := .next (s.branch (!s.flagN) off)
/-- BMI (R256). -/
def execBmi (off : Byte) (s : State) : Out := .next (s.branch s.flagN off)
/-- BVC (R257). -/
def execBvc (off : Byte) (s : State) : Out := .next (s.branch (!s.flagV) off)
/-- BVS (R258). -/
def execBvs (off : Byte) (s : State) : Out := .next (s.branch s.flagV off)
/-- BCC (R259). -/
def execBcc (off : Byte) (s : State) : Out := .next (s.branch (!s.flagC) off)
/-- BCS (R260). -/
def execBcs (off : Byte) (s : State) : Out := .next (s.branch s.flagC off)
/-- BNE (R261). -/
def execBne (off : Byte) (s : State) : Out := .next (s.branch (!s.flagZ) off)
/-- BEQ (R262). -/
def execBeq (off : Byte) (s : State) : Out := .next (s.branch s.flagZ off)
/-- BRA (R263). -/
def execBra (off : Byte) (s : State) : Out := .next (s.branch true off)

end Sys2Proof.Machine
end

