-- ==== Sys2Proof/Machine/Logic.lean ====
section
/-! DEFINITION. Machine/Logic.lean: logic, bit test, shifts and rotates, test and set or reset bits (file 45). -/

namespace Sys2Proof.Machine

/-- AND (R220). -/
def execAnd (src : Src) (s : State) : Out :=
  let m := readSrc src s
  .next ((m.2.setA (s.a &&& m.1)).setZN (s.a &&& m.1))

/-- ORA (R221). -/
def execOra (src : Src) (s : State) : Out :=
  let m := readSrc src s
  .next ((m.2.setA (s.a ||| m.1)).setZN (s.a ||| m.1))

/-- EOR (R222). -/
def execEor (src : Src) (s : State) : Out :=
  let m := readSrc src s
  .next ((m.2.setA (s.a ^^^ m.1)).setZN (s.a ^^^ m.1))

/-- BIT: the memory forms write Z, V and N, the immediate form Z only (R223). -/
def execBit (src : Src) (s : State) : Out :=
  let m := readSrc src s
  match src with
  | .imm _ => .next (m.2.setP (putTest s.p s.a m.1))
  | .mem _ => .next (m.2.setP (putBitTest s.p s.a m.1))

/-- ASL (R224). -/
def execAsl (t : Tgt) (s : State) : Out :=
  let m := modifyTgt t (fun v => (shiftAsl v).result) s
  .next (m.2.setP (putShift s.p (shiftAsl m.1)))

/-- LSR (R225). -/
def execLsr (t : Tgt) (s : State) : Out :=
  let m := modifyTgt t (fun v => (shiftLsr v).result) s
  .next (m.2.setP (putShift s.p (shiftLsr m.1)))

/-- ROL: the old C enters bit 0 (R226). -/
def execRol (t : Tgt) (s : State) : Out :=
  let m := modifyTgt t (fun v => (shiftRol v s.flagC).result) s
  .next (m.2.setP (putShift s.p (shiftRol m.1 s.flagC)))

/-- ROR: the old C enters bit 7 (R227). -/
def execRor (t : Tgt) (s : State) : Out :=
  let m := modifyTgt t (fun v => (shiftRor v s.flagC).result) s
  .next (m.2.setP (putShift s.p (shiftRor m.1 s.flagC)))

/-- TSB: Z from the byte read, then the bits of A are set in it (R228). -/
def execTsb (m : MemMode) (s : State) : Out :=
  let v := modifyMem m (fun v => v ||| s.a) s
  .next (v.2.setP (putTest s.p s.a v.1))

/-- TRB: Z from the byte read, then the bits of A are cleared in it (R229). -/
def execTrb (m : MemMode) (s : State) : Out :=
  let v := modifyMem m (fun v => v &&& (s.a ^^^ 0xFF#8)) s
  .next (v.2.setP (putTest s.p s.a v.1))

end Sys2Proof.Machine
end

