-- ==== Sys2Proof/Machine/Stack.lean ====
section
/-! DEFINITION. Machine/Stack.lean: the stack instructions (file 42). -/

namespace Sys2Proof.Machine

/-- PHA (R180). -/
def execPha (s : State) : Out := .next (s.pushSequence s.a)

/-- PHP pushes P with bits 4 and 5 set and leaves P alone (R181). -/
def execPhp (s : State) : Out := .next (s.pushSequence (pushedStatus true s.p))

/-- PHX (R184). -/
def execPhx (s : State) : Out := .next (s.pushSequence s.x)

/-- PHY (R185). -/
def execPhy (s : State) : Out := .next (s.pushSequence s.y)

/-- PLA (R182). -/
def execPla (s : State) : Out :=
  let v := s.pullSequence
  .next ((v.2.setA v.1).setZN v.1)

/-- PLP: all bits from the pulled byte, bit 5 set (R183). -/
def execPlp (s : State) : Out :=
  let v := s.pullSequence
  .next (v.2.setP (restoredStatus v.1))

/-- PLX (R186). -/
def execPlx (s : State) : Out :=
  let v := s.pullSequence
  .next ((v.2.setX v.1).setZN v.1)

/-- PLY (R187). -/
def execPly (s : State) : Out :=
  let v := s.pullSequence
  .next ((v.2.setY v.1).setZN v.1)

end Sys2Proof.Machine
end

