-- ==== Sys2Proof/Machine/System.lean ====
section
/-! DEFINITION. Machine/System.lean: BRK, RTI, the no-operation classes and HALT (file 48). -/

namespace Sys2Proof.Machine

/-- BRK: the signature byte is fetched and skipped, then the shared entry with B = 1 (R270). -/
def execBrk (s : State) : Out := .next (s.fetch8.2.takeException irqVector true)

/-- RTI (R271). -/
def execRti (s : State) : Out := .next s.implied.dummyStack.returnFromException

/-- NOP `$EA` (R272). -/
def execNop (s : State) : Out := .next s.implied

/-- The one-byte, one-cycle no-operations: nothing after the opcode fetch (R273). -/
def execNop1 (_op : Byte) (s : State) : Out := .next s

/-- The two-byte, two-cycle no-operations: the operand byte has been fetched (R274). -/
def execNopImm (_op _d : Byte) (s : State) : Out := .next s

/-- The no-operation `$44` reads the zero-page byte (R275). -/
def execNopZp (d : Byte) (s : State) : Out := .next (s.dummyRead (zeroPage d))

/-- The no-operations `$54 $D4 $F4` read the byte and the indexed byte (R276). -/
def execNopZpx (_op d : Byte) (s : State) : Out :=
  .next ((s.dummyRead (zeroPage d)).dummyRead (zeroPage (d + s.x)))

/-- The no-operations `$DC $FC` read the byte at the address; X is not added (R277). -/
def execNopAbs (_op : Byte) (a : Addr) (s : State) : Out := .next (s.dummyRead a)

/-- The no-operation `$5C`: five cycles without a bus access (R278). -/
def execNopAbs8 (_a : Addr) (s : State) : Out := .next (s.idle 5)

/-- HALT (R281). -/
def execHalt (s : State) : Out := .next (s.setRun .halted)

end Sys2Proof.Machine
end

