-- ==== Sys2Proof/Machine/Transfer.lean ====
section
/-! DEFINITION. Machine/Transfer.lean: loads, stores and register transfers (file 41). -/

namespace Sys2Proof.Machine

/-- LDA (R160). -/
def execLda (src : Src) (s : State) : Out :=
  let m := readSrc src s
  .next ((m.2.setA m.1).setZN m.1)

/-- LDX (R161). -/
def execLdx (src : Src) (s : State) : Out :=
  let m := readSrc src s
  .next ((m.2.setX m.1).setZN m.1)

/-- LDY (R162). -/
def execLdy (src : Src) (s : State) : Out :=
  let m := readSrc src s
  .next ((m.2.setY m.1).setZN m.1)

/-- STA (R163). -/
def execSta (m : MemMode) (s : State) : Out := .next (writeMem m s.a s)

/-- STX (R164). -/
def execStx (m : MemMode) (s : State) : Out := .next (writeMem m s.x s)

/-- STY (R165). -/
def execSty (m : MemMode) (s : State) : Out := .next (writeMem m s.y s)

/-- STZ (R166). -/
def execStz (m : MemMode) (s : State) : Out := .next (writeMem m 0x00#8 s)

/-- TAX (R167). -/
def execTax (s : State) : Out := .next ((s.implied.setX s.a).setZN s.a)

/-- TAY (R168). -/
def execTay (s : State) : Out := .next ((s.implied.setY s.a).setZN s.a)

/-- TXA (R169). -/
def execTxa (s : State) : Out := .next ((s.implied.setA s.x).setZN s.x)

/-- TYA (R170). -/
def execTya (s : State) : Out := .next ((s.implied.setA s.y).setZN s.y)

/-- TSX (R171). -/
def execTsx (s : State) : Out := .next ((s.implied.setX s.sp).setZN s.sp)

/-- TXS, which sets no flag (R172). -/
def execTxs (s : State) : Out := .next (s.implied.setSp s.x)

end Sys2Proof.Machine
end

