-- ==== Sys2Proof/Machine/Boundary.lean ====
section
/-! DEFINITION. Machine/Boundary.lean: fetching an instruction, one turn of the run loop from a boundary to the next
(R313, R350), and placing an instruction where the next turn fetches it. -/

namespace Sys2Proof.Machine

/-- How many bytes of an instruction are fetched before its operation starts: all of them, but for BBR and BBS, which fetch
their offset after the reads of the zero-page byte (R292). -/
def fetchCount (i : Instr) : Nat :=
  match i with
  | .bbr _ _ _ => 2
  | .bbs _ _ _ => 2
  | i => i.length

/-- The instruction at PC and the state after the fetch of its bytes.
The decoder is given the three bytes that three fetches in a row return; only the fetches the instruction makes take effect. -/
def State.fetchInstr (s : State) : Instr × State :=
  let b0 := s.fetch8
  let b1 := b0.2.fetch8
  let b2 := b1.2.fetch8
  let i := decodeBytes s.params.variant b0.1 b1.1 b2.1
  (i, match fetchCount i with
      | 1 => b0.2
      | 2 => b1.2
      | _ => b2.2)

/-- Execute of R350: the instruction at PC is fetched and runs. -/
def State.fetchExecute (s : State) : Out :=
  let f := s.fetchInstr
  exec f.1 f.2

/-- One turn from a boundary (R313, R350): the inputs are sampled; a stop request cuts the run off; a waiting core lets one
cycle pass unless an interrupt is requested (R295); otherwise an interrupt that is due is entered, and an instruction runs. -/
def State.turn (s : State) : Out :=
  if s.stopRequested then .next s
  else
    let s := s.sampleInputs
    if s.stopRequested then .next s
    else if s.run = .waiting ∧ !(s.nmiPending || s.irqLine) then .next (s.idle 1)
    else (s.setRun .running).poll.fetchExecute

/-- A byte placed at an address of SysRAM or of a ROM image. -/
def State.place (s : State) (a : Addr) (v : Byte) : State :=
  match region a with
  | .sysRam => { s with ram := s.ram.write s.ramFill.byte a.toNat v }
  | .rom1 => { s with params.rom1 := Memory.write romBlank s.params.rom1 (a &&& 0x1FFF#16).toNat v }
  | .rom0 => { s with params.rom0 := Memory.write romBlank s.params.rom0 (a &&& 0x1FFF#16).toNat v }
  | .ioController | .serial0 | .serial1 | .unmapped => s

/-- The bits `w` of an instruction placed where the next turn fetches it: at PC, or at `$0000` where a byte of it would fall
into `$8000-$BFFF`, which stores nothing. The machine runs, and no input is pending that would divert it (log entry 5). -/
def State.placeInstr (s : State) (nbits w : Nat) : State :=
  let bits := w % 2 ^ nbits
  let stores (a : Addr) : Bool := (s.stored a).isSome
  let at_ := if stores s.pc && stores (s.pc + 1#16) && stores (s.pc + 2#16) then s.pc else 0x0000#16
  let ready : State :=
    { s with pc := at_, run := .running, irqLine := false, nmiPending := false, stopRequested := false, inputs := [] }
  ((ready.place at_ (byteOf bits 0)).place (at_ + 1#16) (byteOf bits 1)).place (at_ + 2#16) (byteOf bits 2)

end Sys2Proof.Machine
end

