-- ==== Sys2Proof/Machine/Step.lean ====
section
/-! DEFINITION. Machine/Step.lean: one step of the machine. -/

namespace Sys2Proof.Machine

/-- One step (R350): the reset sequence in `Boot`, one turn of the run loop in `Running` and `Waiting`; in `Halted` and
`Stopped` nothing happens any more, and the step answers the same state (R281, R296; log entry 7). -/
def step (s : State) : Host.Outcome State Fault Refusal :=
  match s.run with
  | .boot => .next s.resetSequence
  | .running => s.turn
  | .waiting => s.turn
  | .halted => .next s
  | .stopped => .next s

/-- The state with an instruction stored where `step` fetches its next instruction (log entry 5). -/
def State.withFetchWord (s : State) (nbits w : Nat) : State := s.placeInstr nbits w

end Sys2Proof.Machine
end

