-- ==== Sys2Proof/Safety.lean ====
section
/-! DEFINITION. Safety.lean: what counts as a safe run and as a clean halt, the invariant of the machine, and the words
the claims use for what an instruction reads, stores, logs and leaves alone. -/

namespace Sys2Proof.Machine

/-! ### Runs -/

/-- A safe run: no number of steps from the state ends in a fault or a refusal (R300, R117). -/
def SafeFrom (s : State) : Prop := ∀ n, ∃ t, Host.Core.run Sys2Proof.core n s = .next t

/-- A clean halt: after `n` steps the machine has executed HALT (R327 (a)). -/
def CleanHalt (s : State) (n : Nat) (t : State) : Prop :=
  Host.Core.run Sys2Proof.core n s = .next t ∧ t.run = .halted

/-- The state is at a boundary of a running machine at which neither the host nor an interrupt diverts the next instruction
(R313): no stop request, no pending NMI, and IRQ released or masked. -/
def Quiet (s : State) : Prop :=
  s.run = .running ∧ s.stopRequested = false ∧ s.inputs = [] ∧ s.nmiPending = false ∧ (s.irqLine && !s.flagI) = false

/-! ### What a step may read, store and log -/

/-- A value that a read of the address may return: the byte stored there, or any member of `OPEN_BUS` where nothing is stored
(R61, R64). -/
def Returns (s : State) (a : Addr) (v : Byte) : Prop :=
  s.stored a = some v ∨ (s.stored a = none ∧ v ∈ OpenBus.members s.params.openBus)

/-- Every byte of memory reads as before. -/
def SameStored (s t : State) : Prop := ∀ b, t.stored b = s.stored b

/-- `v` is written to the address `a`, which stores it if it lies below `$8000`; every other byte reads as before (R63). -/
def StoresAt (a : Addr) (v : Byte) (s t : State) : Prop :=
  ∀ b, t.stored b = if b = a ∧ a.toNat < 0x8000 then some v else s.stored b

/-- The parameters of the run and the outside world's requests are unchanged. -/
def SameEnv (s t : State) : Prop :=
  t.params = s.params ∧ t.inputs = s.inputs ∧ t.irqLine = s.irqLine ∧ t.nmiPending = s.nmiPending ∧
  t.stopRequested = s.stopRequested

/-- Every bit of P but the listed ones is unchanged. -/
def StatusKept (changed : List Nat) (s t : State) : Prop :=
  ∀ k, k < 8 → k ∉ changed → t.p.getLsbD k = s.p.getLsbD k

/-- Z and N are those of the byte `v` (R30). -/
def ZNFrom (v : Byte) (t : State) : Prop := t.flagZ = decide (v = 0#8) ∧ t.flagN = v.getLsbD 7

/-- LOG has gained exactly these events, oldest first. -/
def Logs (s t : State) (events : List BusEvent) : Prop := t.busLog = s.busLog ++ events

/-- The instruction takes `n` cycles in all, the fetch of its bytes before `s` included (R11, R355). -/
def Costs (i : Instr) (s t : State) (n : Nat) : Prop := t.cyc + fetchCount i = s.cyc + n

/-- The cycles of an event (R355). -/
def eventCycles : BusEvent → Nat
  | .read _ _ => 1
  | .write _ _ => 1
  | .idle n => n

/-- The cycles of a log. -/
def logCycles (events : List BusEvent) : Nat := (events.map eventCycles).sum

/-- A sequence of bus events explains the passage from one content of memory to another: each read returns the latest byte
written there, or a member of `OPEN_BUS` where nothing is stored, each write below `$8000` is stored, and nothing else
changes (R62, R63, R78). -/
def Explains (openBus : List Byte) : List BusEvent → (Addr → Option Byte) → (Addr → Option Byte) → Prop
  | [], m, m' => ∀ b, m' b = m b
  | .read a v :: rest, m, m' => (m a = some v ∨ (m a = none ∧ v ∈ openBus)) ∧ Explains openBus rest m m'
  | .write a v :: rest, m, m' =>
    Explains openBus rest (fun b => if b = a ∧ a.toNat < 0x8000 then some v else m b) m'
  | .idle _ :: rest, m, m' => Explains openBus rest m m'

/-! ### The invariant -/

/-- What every step keeps: the three arrays are canonical, bit 5 of P is 1 (R27), CYC counts the log (R357 (b)), and once the
machine has left `Boot` the log begins with the two reads of the reset vector (R357 (c)). -/
structure State.Inv (s : State) : Prop where
  ram : Memory.wf s.ramFill.byte 0x8000 s.ram = true
  rom0 : Memory.wf romBlank 0x2000 s.params.rom0 = true
  rom1 : Memory.wf romBlank 0x2000 s.params.rom1 = true
  bit5 : s.p.getLsbD 5 = true
  cycles : s.cyc = logCycles s.busLog
  vector : s.run ≠ .boot → s.busLog.take 2 =
    [.read 0xFFFC#16 (rom0Byte s.params 0x1FFC), .read 0xFFFD#16 (rom0Byte s.params 0x1FFD)]

end Sys2Proof.Machine
end

