-- ==== Sys2Proof/Certificates/Slice0/Obligations.lean ====
section
/-! DEFINITION. Certificates/Slice0/Obligations.lean: the statements for the provers.
In every statement about `exec`, `s` is the state after the fetch of the instruction's bytes, so that `s.pc` is the address
of the next instruction (of the signature byte for BRK, of the offset byte for BBR and BBS). -/

open Sys2Proof Sys2Proof.Machine

/-! ### Schemes: what the rules of one shape say -/

namespace Sys2Proof.Rules

/-- One form of an "Encoding" line: mode, opcode, bytes, cycles, and whether a page crossing costs one cycle more. -/
structure Form where
  mode : Mode
  opcode : Byte
  bytes : Nat
  cycles : Nat
  plus : Bool := false

/-- An "Encoding" line holds of an instruction whose operation led from `s` to `t`; a form it does not list has no encoding. -/
def EncodingLine (line : List Form) (i : Instr) (mode : Mode) (operands : List Byte) (crossed : Bool) (s t : State) : Prop :=
  (∀ f ∈ line, f.mode = mode →
    encode i = some (f.opcode :: operands) ∧ i.length = f.bytes ∧
    Costs i s t (f.cycles + if f.plus && crossed then 1 else 0)) ∧
  ((∀ f ∈ line, f.mode ≠ mode) → encode i = none)

/-- The base address and the index of an indexed mode whose sum can cross a page (R142). -/
def indexedBase (m : MemMode) (s : State) : Option (Addr × Byte) :=
  match m with
  | .abx a => some (a, s.x)
  | .aby a => some (a, s.y)
  | .izy d => some (mkAddr (s.busByte (zeroPage (d + 1#8))) (s.busByte (zeroPage d)), s.y)
  | _ => none

/-- The indexed address computation of the operand crosses a page (R142). -/
def memCrosses (m : MemMode) (s : State) : Bool :=
  match indexedBase m s with
  | some (base, index) => hiByte (base + index.zeroExtend 16) != hiByte base
  | none => false

def srcCrosses (src : Src) (s : State) : Bool :=
  match src with
  | .imm _ => false
  | .mem m => memCrosses m s

/-- `v` is the operand byte: the immediate itself (R133), or what a read of the effective address returns (R145). -/
def OperandIs (src : Src) (s : State) (v : Byte) : Prop :=
  match src with
  | .imm b => v = b
  | .mem m => Returns s (effAddr m .read s).1 v

/-- A, X, Y and SP are unchanged. -/
def RegsKept (s t : State) : Prop := t.a = s.a ∧ t.x = s.x ∧ t.y = s.y ∧ t.sp = s.sp

/-- The bus accesses of the read class from `s` to `t`: none for an immediate, whose byte has been fetched (R133); for an
operand in memory those of its mode, then one read at the effective address, which returned `v` (R145). -/
def ReadLogs (src : Src) (v : Byte) (s t : State) : Prop :=
  match src with
  | .imm _ => t.busLog = s.busLog
  | .mem m => t.busLog = (effAddr m .read s).2.busLog ++ [.read (effAddr m .read s).1 v]

/-- The instruction completes, reads one operand, has its effect on the registers and P, makes the bus accesses of the read
class, and leaves PC, RUN, all of memory and the outside world alone. The operand is the very byte that the logged read
returned, also where that is a placeholder draw. -/
def ReadRule (i : Src → Instr) (line : List Form) (effect : Byte → State → State → Prop) : Prop :=
  ∀ src s, ∃ v t, exec (i src) s = .next t ∧
    OperandIs src s v ∧ v = (readSrc src s).1 ∧ effect v s t ∧
    t.pc = s.pc ∧ t.run = s.run ∧ SameStored s t ∧ SameEnv s t ∧
    ReadLogs src v s t ∧
    EncodingLine line (i src) src.mode src.operands (srcCrosses src s) s t

/-- The instruction completes and stores a byte at the effective address: the accesses of the mode, then one write; no
register, no flag and no other byte changes. -/
def WriteRule (i : MemMode → Instr) (line : List Form) (value : State → Byte) : Prop :=
  ∀ m s, ∃ t, exec (i m) s = .next t ∧
    StoresAt (effAddr m .write s).1 (value s) s t ∧
    RegsKept s t ∧ t.p = s.p ∧ t.pc = s.pc ∧ t.run = s.run ∧ SameEnv s t ∧
    t.busLog = (effAddr m .write s).2.busLog ++ [.write (effAddr m .write s).1 (value s)] ∧
    EncodingLine line (i m) m.mode m.operands (memCrosses m s) s t

/-- The instruction completes in the rmw class: the accesses of the mode, then a read, a dummy read and a write at the
effective address; the byte written is computed from the first read, and P changes as `flags` says of the byte read and the
byte written. -/
def ModifyRule (i : MemMode → Instr) (line : List Form) (f : State → Byte → Byte)
    (flags : Byte → Byte → State → State → Prop) : Prop :=
  ∀ m s, ∃ v w t, exec (i m) s = .next t ∧
    Returns s (effAddr m .rmw s).1 v ∧ Returns s (effAddr m .rmw s).1 w ∧
    StoresAt (effAddr m .rmw s).1 (f s v) s t ∧ flags v (f s v) s t ∧
    RegsKept s t ∧ t.pc = s.pc ∧ t.run = s.run ∧ SameEnv s t ∧
    t.busLog = (effAddr m .rmw s).2.busLog ++
      [.read (effAddr m .rmw s).1 v, .read (effAddr m .rmw s).1 w, .write (effAddr m .rmw s).1 (f s v)] ∧
    EncodingLine line (i m) m.mode m.operands (memCrosses m s) s t

/-- The instruction is implied, of one byte: it completes, reads the byte at PC, and has its effect; PC, RUN, all of memory
and the outside world are unchanged (R131). -/
def ImpliedRule (i : Instr) (opcode : Byte) (effect : State → State → Prop) : Prop :=
  encode i = some [opcode] ∧
  ∀ s, ∃ w t, exec i s = .next t ∧ effect s t ∧
    t.pc = s.pc ∧ t.run = s.run ∧ SameStored s t ∧ SameEnv s t ∧
    Returns s s.pc w ∧ Logs s t [.read s.pc w] ∧ Costs i s t 2

/-- The accumulator form of a read-modify-write instruction (R132). -/
def AccumulatorRule (i : Instr) (opcode : Byte) (f : State → Byte → Byte) (flags : Byte → Byte → State → State → Prop) :
    Prop :=
  ImpliedRule i opcode fun s t =>
    t.a = f s s.a ∧ flags s.a (f s s.a) s t ∧ t.x = s.x ∧ t.y = s.y ∧ t.sp = s.sp

/-- A flag operation writes one bit of P and no register. -/
def FlagRule (i : Instr) (opcode : Byte) (bit : Nat) (value : Bool) : Prop :=
  ImpliedRule i opcode fun s t => RegsKept s t ∧ t.p.getLsbD bit = value ∧ StatusKept [bit] s t

/-- A push instruction: the push sequence of R188 with the given byte; no register but SP, no flag and no other byte of
memory changes. -/
def PushRule (i : Instr) (opcode : Byte) (value : State → Byte) : Prop :=
  encode i = some [opcode] ∧
  ∀ s, ∃ w t, exec i s = .next t ∧
    StoresAt (stackAddr s.sp) (value s) s t ∧ t.sp = s.sp - 1#8 ∧
    t.a = s.a ∧ t.x = s.x ∧ t.y = s.y ∧ t.p = s.p ∧ t.pc = s.pc ∧ t.run = s.run ∧ SameEnv s t ∧
    Returns s s.pc w ∧ Logs s t [.read s.pc w, .write (stackAddr s.sp) (value s)] ∧ Costs i s t 3

/-- A pull instruction: the pull sequence of R189, with the effect of the pulled byte. -/
def PullRule (i : Instr) (opcode : Byte) (effect : Byte → State → State → Prop) : Prop :=
  encode i = some [opcode] ∧
  ∀ s, ∃ w d v t, exec i s = .next t ∧
    s.stored (stackAddr (s.sp + 1#8)) = some v ∧ effect v s t ∧ t.sp = s.sp + 1#8 ∧
    t.pc = s.pc ∧ t.run = s.run ∧ SameStored s t ∧ SameEnv s t ∧
    Returns s s.pc w ∧ s.stored (stackAddr s.sp) = some d ∧
    Logs s t [.read s.pc w, .read (stackAddr s.sp) d, .read (stackAddr (s.sp + 1#8)) v] ∧ Costs i s t 4

/-- The part of a branch after the fetch of its offset: from `s`, whose PC is the address of the next instruction, the branch
reaches `t`, with `events` in the log (R264). -/
def Branches (taken : Bool) (off : Byte) (s t : State) (events : List BusEvent) : Prop :=
  let target := BitVec.ofInt 16 ((s.pc.toNat : Int) + off.toInt)
  (taken = false → t.pc = s.pc ∧ events = []) ∧
  (taken = true → t.pc = target ∧ ∃ w, Returns s s.pc w ∧
    (hiByte target = hiByte s.pc → events = [.read s.pc w]) ∧
    (hiByte target ≠ hiByte s.pc → ∃ d, Returns s (mkAddr (hiByte s.pc) (loByte target)) d ∧
      events = [.read s.pc w, .read (mkAddr (hiByte s.pc) (loByte target)) d]))

/-- A branch instruction completes with the sequence of R264 and changes PC alone; 2 cycles not taken, 3 taken within the page
of the next instruction, 4 taken to another page. -/
def BranchRule (i : Byte → Instr) (opcode : Byte) (cond : State → Bool) : Prop :=
  ∀ off s, encode (i off) = some [opcode, off] ∧ ∃ t events, exec (i off) s = .next t ∧
    Branches (cond s) off s t events ∧ Logs s t events ∧ Costs (i off) s t (2 + events.length) ∧
    RegsKept s t ∧ t.p = s.p ∧ t.run = s.run ∧ SameStored s t ∧ SameEnv s t

/-- A no-operation completes: no register, no flag and no byte of memory changes, and PC stays at the next instruction. -/
def NothingChanged (s t : State) : Prop :=
  RegsKept s t ∧ t.p = s.p ∧ t.pc = s.pc ∧ t.run = s.run ∧ SameStored s t ∧ SameEnv s t

end Sys2Proof.Rules

open Sys2Proof.Rules

/-! ### The bus and the stack controller -/

/-- R61: the memory map by ranges of the address, for reads and for writes. -/
def Obligations.AddressMapByRange : Prop :=
  ∀ (s : State) (a : Addr),
    Returns s a (s.memRead a).1 ∧
    (a.toNat < 0x8000 → s.stored a = some (s.ram.read s.ramFill.byte a.toNat)) ∧
    (0x8000 ≤ a.toNat ∧ a.toNat < 0xC000 → s.stored a = none) ∧
    (0xC000 ≤ a.toNat ∧ a.toNat < 0xE000 →
      s.stored a = some (Memory.read romBlank s.params.rom1 (a.toNat - 0xC000))) ∧
    (0xE000 ≤ a.toNat → s.stored a = some (Memory.read romBlank s.params.rom0 (a.toNat - 0xE000))) ∧
    ∀ v b, (s.memWrite a v).stored b = if b = a ∧ a.toNat < 0x8000 then some v else s.stored b

/-- R62 and R63: a bus access takes one cycle and is logged; a read changes nothing else, a write nothing but the byte in
SysRAM. -/
def Obligations.BusAccessesAreLoggedAndCounted : Prop :=
  ∀ (s : State) (a : Addr) (v : Byte),
    (Returns s a (s.memRead a).1 ∧ Logs s (s.memRead a).2 [.read a (s.memRead a).1] ∧
      (s.memRead a).2.cyc = s.cyc + 1 ∧ SameStored s (s.memRead a).2 ∧ SameEnv s (s.memRead a).2 ∧
      RegsKept s (s.memRead a).2 ∧ (s.memRead a).2.p = s.p ∧ (s.memRead a).2.pc = s.pc ∧ (s.memRead a).2.run = s.run) ∧
    (StoresAt a v s (s.memWrite a v) ∧ Logs s (s.memWrite a v) [.write a v] ∧
      (s.memWrite a v).cyc = s.cyc + 1 ∧ SameEnv s (s.memWrite a v) ∧
      RegsKept s (s.memWrite a v) ∧ (s.memWrite a v).p = s.p ∧ (s.memWrite a v).pc = s.pc ∧ (s.memWrite a v).run = s.run)

/-- The I/O window: a read of `$8000-$BFFF` returns a member of `OPEN_BUS`, by default neither `$00` nor `$FF`, and a write
there changes no byte of memory.
That the draws are otherwise free is the model's free value (log entry 1); this statement holds whatever they are. -/
def Obligations.PlaceholderReadsAndDiscardedWrites : Prop :=
  (∀ v : Byte, v ∈ OpenBus.members OpenBus.standard ↔ v ≠ 0x00#8 ∧ v ≠ 0xFF#8) ∧
  ∀ (s : State) (a : Addr), 0x8000 ≤ a.toNat → a.toNat < 0xC000 →
    (s.memRead a).1 ∈ OpenBus.members s.params.openBus ∧
    (s.params.openBus = .standard → (s.memRead a).1 ≠ 0x00#8 ∧ (s.memRead a).1 ≠ 0xFF#8) ∧
    ∀ v, SameStored s (s.memWrite a v)

/-- R66 and R67: an instruction byte is read at PC, which goes on by one modulo 65536; a 16-bit pointer is two reads, the low
byte first. -/
def Obligations.FetchesAndPointerReads : Prop :=
  ∀ (s : State) (a0 a1 : Addr),
    (Returns s s.pc s.fetch8.1 ∧ s.fetch8.2.pc.toNat = (s.pc.toNat + 1) % 65536 ∧
      Logs s s.fetch8.2 [.read s.pc s.fetch8.1] ∧ s.fetch8.2.cyc = s.cyc + 1 ∧
      RegsKept s s.fetch8.2 ∧ s.fetch8.2.p = s.p ∧ s.fetch8.2.run = s.run ∧ SameStored s s.fetch8.2 ∧
      SameEnv s s.fetch8.2) ∧
    ∃ lo hi, Returns s a0 lo ∧ Returns s a1 hi ∧
      (s.read16 a0 a1).1.toNat = hi.toNat * 256 + lo.toNat ∧
      Logs s (s.read16 a0 a1).2 [.read a0 lo, .read a1 hi] ∧ (s.read16 a0 a1).2.cyc = s.cyc + 2 ∧
      RegsKept s (s.read16 a0 a1).2 ∧ (s.read16 a0 a1).2.p = s.p ∧ (s.read16 a0 a1).2.pc = s.pc ∧
      (s.read16 a0 a1).2.run = s.run ∧ SameStored s (s.read16 a0 a1).2 ∧ SameEnv s (s.read16 a0 a1).2

/-- R68, and the pop beside it: a push writes at `$0100 | SP` and then decrements SP modulo 256; a pop increments SP modulo 256
and then reads there; a pop after a push gives the byte back. -/
def Obligations.PushesAndPops : Prop :=
  ∀ (s : State) (v : Byte),
    ((stackAddr s.sp).toNat = 0x0100 + s.sp.toNat ∧ StoresAt (stackAddr s.sp) v s (s.push v) ∧
      (s.push v).sp.toNat = (s.sp.toNat + 255) % 256 ∧ Logs s (s.push v) [.write (stackAddr s.sp) v] ∧
      (s.push v).cyc = s.cyc + 1 ∧ (s.push v).a = s.a ∧ (s.push v).x = s.x ∧ (s.push v).y = s.y ∧
      (s.push v).p = s.p ∧ (s.push v).pc = s.pc ∧ (s.push v).run = s.run ∧ SameEnv s (s.push v)) ∧
    (s.pop.2.sp.toNat = (s.sp.toNat + 1) % 256 ∧ s.stored (stackAddr s.pop.2.sp) = some s.pop.1 ∧
      Logs s s.pop.2 [.read (stackAddr s.pop.2.sp) s.pop.1] ∧ s.pop.2.cyc = s.cyc + 1 ∧
      s.pop.2.a = s.a ∧ s.pop.2.x = s.x ∧ s.pop.2.y = s.y ∧ s.pop.2.p = s.p ∧ s.pop.2.pc = s.pc ∧
      s.pop.2.run = s.run ∧ SameStored s s.pop.2 ∧ SameEnv s s.pop.2) ∧
    ((s.push v).pop.1 = v ∧ (s.push v).pop.2.sp = s.sp)

/-- 256 pushes from any SP return SP to its start and write each byte of the stack page exactly once: push number `k` stands
at `$0100 | (SP - k)`, and no byte outside the page changes. -/
def Obligations.FullLapOfPushes : Prop :=
  ∀ (s : State) (v : Nat → Byte),
    let t := (List.range 256).foldl (fun u k => u.push (v k)) s
    t.sp = s.sp ∧
    (∀ k, k < 256 → t.stored (stackAddr (s.sp - BitVec.ofNat 8 k)) = some (v k)) ∧
    ∀ b, hiByte b ≠ 0x01#8 → t.stored b = s.stored b

/-! ### Reset -/

/-- A step in `Boot` is the reset sequence (70_reset_and_hazards.md section 1), which leaves the values of the reset table
(10_state.md section 5). That the sequence itself makes the IRQ level inactive, whatever it was in `Boot`, is the model's
reading of that table (log entry 10).
SysRAM is zeroed or holds whatever contents `RAM_INIT = random` left; this statement holds whatever they are. -/
def Obligations.ResetSequenceLeavesTheResetState : Prop :=
  ∀ s : State, s.run = .boot → ∃ t, step s = .next t ∧
    t.run = .running ∧ t.p = 0x20#8 ∧
    t.pc = mkAddr (rom0Byte s.params 0x1FFD) (rom0Byte s.params 0x1FFC) ∧
    RegsKept s t ∧
    (s.params.ramInit = .zero → ∀ a : Addr, a.toNat < 0x8000 → t.stored a = some 0x00#8) ∧
    (s.params.ramInit = .random → ∃ contents : Nat → Byte, ∀ a : Addr, a.toNat < 0x8000 → t.stored a = some (contents a.toNat)) ∧
    (∀ a : Addr, 0x8000 ≤ a.toNat → t.stored a = s.stored a) ∧
    t.cyc = 2 ∧
    t.busLog = [.read 0xFFFC#16 (rom0Byte s.params 0x1FFC), .read 0xFFFD#16 (rom0Byte s.params 0x1FFD)] ∧
    t.params = s.params ∧ t.irqLine = false ∧ t.nmiPending = false

/-! ### Whole-machine rules -/

/-- The state after reset meets the invariant, whatever canonical ROM images and other parameters the run has; so does the
state at power-on, whose P and SysRAM are the model's choice (log entry 10). -/
def Obligations.ResetMeetsInvariant : Prop :=
  State.reset.Inv ∧
  ∀ p : Params, Memory.wf romBlank 0x2000 p.rom0 = true → Memory.wf romBlank 0x2000 p.rom1 = true →
    (State.afterReset p).Inv ∧ (State.powerOn p).Inv

/-- Every step keeps the invariant. -/
def Obligations.StepKeepsInvariant : Prop :=
  ∀ s t : State, s.Inv → step s = .next t → t.Inv

/-- R78: the log of a step explains all of memory. Each read in it returns the latest write to its address or what stood there
before, each write below `$8000` is stored, no byte changes without a logged write, and the cycles of the step are those of
the logged events. The parameters of the run never change. -/
def Obligations.LogExplainsMemory : Prop :=
  ∀ s t : State, s.run ≠ .boot → step s = .next t →
    t.params = s.params ∧
    ∃ events, t.busLog = s.busLog ++ events ∧
      Explains (OpenBus.members s.params.openBus) events s.stored t.stored ∧
      t.cyc = s.cyc + logCycles events

/-- R300: no state, running or not, and no instruction, decoded or not, ends in a fault or a refusal. -/
def Obligations.EveryOpcodeTerminates : Prop :=
  (∀ (i : Instr) (s : State), ∃ t, exec i s = .next t) ∧ (∀ s : State, ∃ t, step s = .next t) ∧ ∀ s : State, SafeFrom s

/-- Nothing a step computes depends on CYC or LOG: two states that differ in them alone step to states that differ in them
alone, and they gain the same cycles and events. -/
def Obligations.CyclesAndLogAreNeverRead : Prop :=
  ∀ (s t : State) (c : Nat) (l : List BusEvent), s.run ≠ .boot → step s = .next t →
    ∃ t', step { s with cyc := c, log := l } = .next t' ∧
      { t' with cyc := t.cyc, log := t.log } = t ∧
      ∃ events, t.log = events ++ s.log ∧ t'.log = events ++ l ∧ t.cyc + c = t'.cyc + s.cyc

/-- Which instructions may write which register (the table of 10_state.md section 6, column "written by"); PC stays at the next
instruction unless a control transfer or a fetch of the operation itself moves it. -/
def Obligations.RegistersWrittenOnlyByListed : Prop :=
  ∀ (i : Instr) (s t : State), exec i s = .next t →
    (t.a ≠ s.a → match i with
      | .lda _ | .pla | .txa | .tya | .adc _ | .sbc _ | .and _ | .ora _ | .eor _
      | .asl .acc | .lsr .acc | .rol .acc | .ror .acc | .inc .acc | .dec .acc => True
      | _ => False) ∧
    (t.x ≠ s.x → match i with
      | .ldx _ | .plx | .tax | .tsx | .inx | .dex => True
      | _ => False) ∧
    (t.y ≠ s.y → match i with
      | .ldy _ | .ply | .tay | .iny | .dey => True
      | _ => False) ∧
    (t.sp ≠ s.sp → match i with
      | .txs | .pha | .php | .phx | .phy | .pla | .plp | .plx | .ply | .jsr _ | .rts | .brk | .rti => True
      | _ => False) ∧
    (t.pc ≠ s.pc → match i with
      | .jmpAbs _ | .jmpInd _ | .jmpIax _ | .jsr _ | .rts | .rti | .brk
      | .bpl _ | .bmi _ | .bvc _ | .bvs _ | .bcc _ | .bcs _ | .bne _ | .beq _ | .bra _
      | .bbr _ _ _ | .bbs _ _ _ => True
      | _ => False)

/-- Which instructions may write which bit of P (the table of R26, column "written by"). -/
def Obligations.StatusBitsWrittenOnlyByListed : Prop :=
  ∀ (i : Instr) (s t : State), exec i s = .next t →
    (t.flagC ≠ s.flagC → match i with
      | .adc _ | .sbc _ | .cmp _ | .cpx _ | .cpy _ | .asl _ | .lsr _ | .rol _ | .ror _ | .clc | .sec | .plp | .rti => True
      | _ => False) ∧
    (t.flagI ≠ s.flagI → match i with
      | .sei | .cli | .brk | .plp | .rti => True
      | _ => False) ∧
    (t.flagD ≠ s.flagD → match i with
      | .sed | .cld | .plp | .rti => True
      | .brk => s.params.intClearsD = true
      | _ => False) ∧
    (t.flagB ≠ s.flagB → match i with
      | .plp | .rti => True
      | _ => False) ∧
    (t.flagV ≠ s.flagV → match i with
      | .adc _ | .sbc _ | .bit (.mem _) | .clv | .plp | .rti => True
      | _ => False) ∧
    (t.flagZ ≠ s.flagZ → match i with
      | .lda _ | .ldx _ | .ldy _ | .tax | .tay | .txa | .tya | .tsx | .pla | .plx | .ply
      | .inc _ | .dec _ | .inx | .iny | .dex | .dey | .adc _ | .sbc _ | .cmp _ | .cpx _ | .cpy _
      | .and _ | .ora _ | .eor _ | .bit _ | .asl _ | .lsr _ | .rol _ | .ror _ | .tsb _ | .trb _ | .plp | .rti => True
      | _ => False) ∧
    (t.flagN ≠ s.flagN → match i with
      | .lda _ | .ldx _ | .ldy _ | .tax | .tay | .txa | .tya | .tsx | .pla | .plx | .ply
      | .inc _ | .dec _ | .inx | .iny | .dex | .dey | .adc _ | .sbc _ | .cmp _ | .cpx _ | .cpy _
      | .and _ | .ora _ | .eor _ | .bit (.mem _) | .asl _ | .lsr _ | .rol _ | .ror _ | .plp | .rti => True
      | _ => False) ∧
    (s.p.getLsbD 5 = true → t.p.getLsbD 5 = true)

/-- No instruction and no pushed byte depends on the stored bit B: two states that differ in bit 4 of P alone run to states
that differ in that bit at most. -/
def Obligations.StoredBreakBitIsNeverRead : Prop :=
  ∀ (i : Instr) (s : State) (b : Bool), ∃ t t', exec i s = .next t ∧ exec i (s.putFlag 4 b) = .next t' ∧
    t'.setP t.p = t ∧ StatusKept [4] t t'

/-! ### Decoding -/

/-- Every well-formed instruction of every variant is read back from its bytes, whatever bytes follow. -/
def Obligations.DecodeInvertsEncode : Prop :=
  ∀ (v : Variant) (i : Instr), i.wf v = true →
    ∃ bytes, encode i = some bytes ∧ ∀ rest, decode v (bytes ++ rest) = .ok (i, rest)

/-- R117: the decoder is total, and each sequence of bytes has one meaning: three bytes are always an instruction of the opcode
map, whose encoding is as many of those bytes as it is long. -/
def Obligations.DecoderIsTotalAndExact : Prop :=
  ∀ (v : Variant) (b0 b1 b2 : Byte) (rest : List Byte), ∃ i,
    i.wf v = true ∧ encode i = some ([b0, b1, b2].take i.length) ∧
    decode v (b0 :: b1 :: b2 :: rest) = .ok (i, (b0 :: b1 :: b2 :: rest).drop i.length)

/-- Words written out from the encodings of the spec, one or more for each family, decode to their instructions (bit 0 of a
word is the least significant bit of its first byte). -/
def Obligations.SampleWordsDecode : Prop :=
  decodeTableWord 16 0x7FA9 = some (.lda (.imm 0x7F#8)) ∧
  decodeTableWord 24 0x0200AD = some (.lda (.mem (.abs 0x0200#16))) ∧
  decodeTableWord 16 0x1096 = some (.stx (.zpy 0x10#8)) ∧
  decodeTableWord 8 0x48 = some .pha ∧
  decodeTableWord 16 0x10E6 = some (.inc (.mem (.zp 0x10#8))) ∧
  decodeTableWord 16 0x2072 = some (.adc (.mem (.izp 0x20#8))) ∧
  decodeTableWord 16 0x01C9 = some (.cmp (.imm 0x01#8)) ∧
  decodeTableWord 16 0x2031 = some (.and (.mem (.izy 0x20#8))) ∧
  decodeTableWord 8 0x0A = some (.asl .acc) ∧
  decodeTableWord 8 0x78 = some .sei ∧
  decodeTableWord 24 0x12346C = some (.jmpInd 0x1234#16) ∧
  decodeTableWord 16 0xFDD0 = some (.bne 0xFD#8) ∧
  decodeTableWord 8 0x00 = some .brk ∧
  decodeTableWord 24 0x02005C = some (.nopAbs8 0x0200#16) ∧
  decodeTableWord 8 0x02 = some .halt ∧
  decodeBytes ⟨.rockwell, .wdc⟩ 0x37#8 0x10#8 0x05#8 = .rmb 3#3 0x10#8 ∧
  decodeBytes ⟨.rockwell, .wdc⟩ 0x8F#8 0x10#8 0x05#8 = .bbs 0#3 0x10#8 0x05#8 ∧
  decodeBytes ⟨.nop, .wdc⟩ 0xCB#8 0x10#8 0x05#8 = .wai

/-! ### The run loop -/

/-- A step from a boundary at which nothing diverts it fetches the bytes at PC, decodes them and runs the instruction. The
state that `exec` is given differs from the one at the boundary by the fetch alone: PC is past the fetched bytes, the cycles and
reads of the fetch are recorded, and the inputs of the boundary have been sampled. How inputs arrive (log entry 6), and that the
third byte of BBR and BBS is fetched in `exec` (log entry 8), are the model's. -/
def Obligations.StepRunsTheDecodedInstruction : Prop :=
  ∀ s : State, s.run = .running → s.stopRequested = false →
    let u := s.sampleInputs
    u.stopRequested = false → u.nmiPending = false → (u.irqLine && !u.flagI) = false →
    ∃ b0 b1 b2 f, Returns s s.pc b0 ∧ Returns s (s.pc + 1#16) b1 ∧ Returns s (s.pc + 2#16) b2 ∧
      let i := decodeBytes s.params.variant b0 b1 b2
      step s = exec i f ∧
      f.pc = s.pc + BitVec.ofNat 16 (fetchCount i) ∧ f.cyc = s.cyc + fetchCount i ∧
      Logs s f ([BusEvent.read s.pc b0, .read (s.pc + 1#16) b1, .read (s.pc + 2#16) b2].take (fetchCount i)) ∧
      RegsKept s f ∧ f.p = s.p ∧ f.run = .running ∧ SameStored s f ∧ SameEnv u f

/-- A machine that is halted or stopped stays exactly as it is: no instruction executes, no cycle passes, no interrupt is
taken, whatever the inputs. That a step of it answers the same state is the model's convention (log entry 7). -/
def Obligations.HaltedAndStoppedAreTerminal : Prop :=
  ∀ s : State, s.run = .halted ∨ s.run = .stopped → ∀ n, Host.Core.run Sys2Proof.core n s = .next s

/-- R313: the poll of a running machine. A stop request comes first and ends the run, then a pending NMI, then an IRQ that is
asserted and not masked; after at most one entry an instruction is fetched and executed.
The script of inputs (log entry 6), that a step with a stop request answers the state it has sampled (log entry 7), and that an
entry and the handler's first instruction are one step (log entry 13), are the model's choice. -/
def Obligations.PollOrder : Prop :=
  ∀ s : State, s.run = .running → s.stopRequested = false →
    let u := s.sampleInputs
    (u.stopRequested = true → step s = .next u) ∧
    (u.stopRequested = false → u.nmiPending = true →
      step s = State.fetchExecute (State.interruptEntry { u with nmiPending := false } 0xFFFA#16)) ∧
    (u.stopRequested = false → u.nmiPending = false → u.irqLine = true → s.flagI = false →
      step s = State.fetchExecute (u.interruptEntry 0xFFFE#16)) ∧
    (u.stopRequested = false → u.nmiPending = false → u.irqLine = true → s.flagI = true → step s = u.fetchExecute) ∧
    (u.stopRequested = false → u.nmiPending = false → u.irqLine = false → step s = u.fetchExecute)

/-- The inputs at a boundary: the IRQ level is sampled, not remembered; an NMI edge sets the latch and one more is absorbed; a
stop request stays; nothing else changes. A run that the host has stopped does not go on, for any number of steps.
How inputs arrive is the model's convention (log entry 6); so is the second clause, that a step of a run the host has stopped
answers the same state (log entry 7). -/
def Obligations.InputsAreSampledAtBoundaries : Prop :=
  ∀ s : State,
    (∀ i rest, s.inputs = i :: rest →
      let u := s.sampleInputs
      u.irqLine = i.irqLine ∧ u.nmiPending = (s.nmiPending || i.nmiEdge) ∧
      u.stopRequested = (s.stopRequested || i.stop) ∧ u.inputs = rest ∧
      RegsKept s u ∧ u.p = s.p ∧ u.pc = s.pc ∧ u.run = s.run ∧ u.cyc = s.cyc ∧ u.busLog = s.busLog ∧
      SameStored s u ∧ u.params = s.params) ∧
    (s.stopRequested = true → s.run ≠ .boot → ∀ n, Host.Core.run Sys2Proof.core n s = .next s)

/-- R314: interrupt entry. -/
def Obligations.InterruptEntrySequence : Prop :=
  ∀ (s : State) (vec : Addr), vec = 0xFFFA#16 ∨ vec = 0xFFFE#16 → ∃ w w' lo hi,
    let t := s.interruptEntry vec
    let pushed := s.p &&& 0xEF#8 ||| 0x20#8
    Returns s s.pc w ∧ Returns s s.pc w' ∧ s.stored vec = some lo ∧ s.stored (vec + 1#16) = some hi ∧
    t.pc = mkAddr hi lo ∧ t.sp = s.sp - 3#8 ∧ t.a = s.a ∧ t.x = s.x ∧ t.y = s.y ∧ t.run = s.run ∧ SameEnv s t ∧
    t.flagI = true ∧ (s.params.intClearsD = true → t.flagD = false) ∧
    StatusKept (if s.params.intClearsD then [2, 3] else [2]) s t ∧
    (∀ b, t.stored b =
      if b = stackAddr (s.sp - 2#8) then some pushed
      else if b = stackAddr (s.sp - 1#8) then some (loByte s.pc)
      else if b = stackAddr s.sp then some (hiByte s.pc)
      else s.stored b) ∧
    Logs s t [.read s.pc w, .read s.pc w', .write (stackAddr s.sp) (hiByte s.pc),
      .write (stackAddr (s.sp - 1#8)) (loByte s.pc), .write (stackAddr (s.sp - 2#8)) pushed,
      .read vec lo, .read (vec + 1#16) hi] ∧
    t.cyc = s.cyc + 7

/-- R295: WAI makes two dummy reads and waits; each step of a waiting core in which no interrupt is requested is one idle cycle
and changes nothing else; a request ends the wait, and then the interrupt poll runs: NMI, IRQ if I = 0, or the instruction
after WAI if I = 1.
The script of inputs (log entry 6), that a step with a stop request answers the state it has sampled (log entry 7), that an entry
and the handler's first instruction are one step (log entry 13), and one idle cycle per step (log entry 17) are the model's choice. -/
def Obligations.WaitForInterrupt : Prop :=
  encode .wai = some [0xCB#8] ∧
  (∀ s : State, ∃ w w' t, exec .wai s = .next t ∧ t.run = .waiting ∧
    Returns s s.pc w ∧ Returns s s.pc w' ∧ Logs s t [.read s.pc w, .read s.pc w'] ∧ Costs .wai s t 3 ∧
    RegsKept s t ∧ t.p = s.p ∧ t.pc = s.pc ∧ SameStored s t ∧ SameEnv s t) ∧
  ∀ s : State, s.run = .waiting → s.stopRequested = false →
    let u := s.sampleInputs
    (u.stopRequested = true → step s = .next u) ∧
    (u.stopRequested = false → u.nmiPending = false → u.irqLine = false → step s = .next (u.idle 1)) ∧
    (u.stopRequested = false → u.nmiPending = true →
      step s = State.fetchExecute (State.interruptEntry { u with nmiPending := false, run := .running } 0xFFFA#16)) ∧
    (u.stopRequested = false → u.nmiPending = false → u.irqLine = true → s.flagI = false →
      step s = State.fetchExecute (State.interruptEntry { u with run := .running } 0xFFFE#16)) ∧
    (u.stopRequested = false → u.nmiPending = false → u.irqLine = true → s.flagI = true →
      step s = State.fetchExecute { u with run := .running })

/-- With no interrupt source WAI never ends: after any number of steps the core still waits, the cycles have passed as idle
cycles, and nothing else has changed. One idle cycle per step (log entry 17), and that an empty script brings no request
(log entry 6), are the model's choice. -/
def Obligations.WaitWithoutSourceNeverEnds : Prop :=
  ∀ s : State, s.run = .waiting → s.stopRequested = false → s.inputs = [] → s.nmiPending = false → s.irqLine = false →
    ∀ n, Host.Core.run Sys2Proof.core n s =
      .next { s with cyc := s.cyc + n, log := List.replicate n (.idle 1) ++ s.log }

/-! ### Addressing modes -/

/-- The effective addresses of file 40 in integer arithmetic: page-zero sums wrap modulo 256, 16-bit sums modulo 65536, and both
bytes of a zero-page pointer come from page zero. -/
def Obligations.EffectiveAddresses : Prop :=
  ∀ (s : State) (cls : Access) (d : Byte) (a : Addr),
    let pointer (n : Nat) : Nat :=
      (s.busByte (zeroPage (BitVec.ofNat 8 n))).toNat + 256 * (s.busByte (zeroPage (BitVec.ofNat 8 (n + 1)))).toNat
    (effAddr (.zp d) cls s).1.toNat = d.toNat ∧
    (effAddr (.zpx d) cls s).1.toNat = (d.toNat + s.x.toNat) % 256 ∧
    (effAddr (.zpy d) cls s).1.toNat = (d.toNat + s.y.toNat) % 256 ∧
    (effAddr (.abs a) cls s).1 = a ∧
    (effAddr (.abx a) cls s).1.toNat = (a.toNat + s.x.toNat) % 65536 ∧
    (effAddr (.aby a) cls s).1.toNat = (a.toNat + s.y.toNat) % 65536 ∧
    (effAddr (.izx d) cls s).1.toNat = pointer (d.toNat + s.x.toNat) ∧
    (effAddr (.izy d) cls s).1.toNat = (pointer d.toNat + s.y.toNat) % 65536 ∧
    (effAddr (.izp d) cls s).1.toNat = pointer d.toNat

/-- The bus accesses that compute an effective address, after the fetch of the operand bytes: the dummy read at the unindexed
zero-page address, the reads of a pointer, and the dummy read at the uncorrected address, which the read class makes when a
page is crossed and the other classes always. They change nothing but cycles and log.
For the modes that no instruction of a class encodes, rmw through `(zp),Y` among them, this is the model's choice (log entry 12). -/
def Obligations.EffectiveAddressAccesses : Prop :=
  ∀ (s : State) (cls : Access) (m : MemMode), ∃ events,
    let t := (effAddr m cls s).2
    let b (d : Byte) : BusEvent := .read (zeroPage d) (s.busByte (zeroPage d))
    Logs s t events ∧ t.cyc = s.cyc + events.length ∧ NothingChanged s t ∧
    ∃ dummy : List BusEvent,
      (match indexedBase m s with
        | none => dummy = []
        | some (base, index) =>
          let ea := base + index.zeroExtend 16
          let at_ := mkAddr (hiByte base) (loByte ea)
          if cls = .read ∧ hiByte ea = hiByte base then dummy = []
          else ∃ w, Returns s at_ w ∧ dummy = [.read at_ w]) ∧
      (match m with
        | .zp _ | .abs _ => events = []
        | .zpx d | .zpy d => events = [b d]
        | .abx _ | .aby _ => events = dummy
        | .izx d => events = [b d, b (d + s.x), b (d + s.x + 1#8)]
        | .izy d => events = [b d, b (d + 1#8)] ++ dummy
        | .izp d => events = [b d, b (d + 1#8)])

/-- The accesses of the three operation classes at the effective address: one read; one write; a read, a dummy read and a write
of a value computed from the first read. -/
def Obligations.OperationClasses : Prop :=
  ∀ (s : State) (m : MemMode) (v : Byte) (f : Byte → Byte),
    (∃ w, Returns s (effAddr m .read s).1 w ∧ (readSrc (.mem m) s).1 = w ∧
      (readSrc (.mem m) s).2.busLog = (effAddr m .read s).2.busLog ++ [.read (effAddr m .read s).1 w] ∧
      NothingChanged s (readSrc (.mem m) s).2) ∧
    ((writeMem m v s).busLog = (effAddr m .write s).2.busLog ++ [.write (effAddr m .write s).1 v] ∧
      StoresAt (effAddr m .write s).1 v s (writeMem m v s)) ∧
    ∃ w w', Returns s (effAddr m .rmw s).1 w ∧ Returns s (effAddr m .rmw s).1 w' ∧ (modifyMem m f s).1 = w ∧
      (modifyMem m f s).2.busLog = (effAddr m .rmw s).2.busLog ++
        [.read (effAddr m .rmw s).1 w, .read (effAddr m .rmw s).1 w', .write (effAddr m .rmw s).1 (f w)] ∧
      StoresAt (effAddr m .rmw s).1 (f w) s (modifyMem m f s).2 ∧
      (effAddr m .read s).1 = (effAddr m .write s).1 ∧ (effAddr m .write s).1 = (effAddr m .rmw s).1

/-! ### Loads, stores and transfers (file 41) -/

/-- R160 to R162. -/
def Obligations.LoadsSetTheRegisterAndZN : Prop :=
  ReadRule .lda [⟨.imm, 0xA9#8, 2, 2, false⟩, ⟨.zp, 0xA5#8, 2, 3, false⟩, ⟨.zpx, 0xB5#8, 2, 4, false⟩,
      ⟨.abs, 0xAD#8, 3, 4, false⟩, ⟨.abx, 0xBD#8, 3, 4, true⟩, ⟨.aby, 0xB9#8, 3, 4, true⟩, ⟨.izx, 0xA1#8, 2, 6, false⟩,
      ⟨.izy, 0xB1#8, 2, 5, true⟩, ⟨.izp, 0xB2#8, 2, 5, false⟩]
    (fun v s t => t.a = v ∧ ZNFrom v t ∧ StatusKept [1, 7] s t ∧ t.x = s.x ∧ t.y = s.y ∧ t.sp = s.sp) ∧
  ReadRule .ldx [⟨.imm, 0xA2#8, 2, 2, false⟩, ⟨.zp, 0xA6#8, 2, 3, false⟩, ⟨.zpy, 0xB6#8, 2, 4, false⟩,
      ⟨.abs, 0xAE#8, 3, 4, false⟩, ⟨.aby, 0xBE#8, 3, 4, true⟩]
    (fun v s t => t.x = v ∧ ZNFrom v t ∧ StatusKept [1, 7] s t ∧ t.a = s.a ∧ t.y = s.y ∧ t.sp = s.sp) ∧
  ReadRule .ldy [⟨.imm, 0xA0#8, 2, 2, false⟩, ⟨.zp, 0xA4#8, 2, 3, false⟩, ⟨.zpx, 0xB4#8, 2, 4, false⟩,
      ⟨.abs, 0xAC#8, 3, 4, false⟩, ⟨.abx, 0xBC#8, 3, 4, true⟩]
    (fun v s t => t.y = v ∧ ZNFrom v t ∧ StatusKept [1, 7] s t ∧ t.a = s.a ∧ t.x = s.x ∧ t.sp = s.sp)

/-- R163 to R166. -/
def Obligations.StoresWriteTheRegister : Prop :=
  WriteRule .sta [⟨.zp, 0x85#8, 2, 3, false⟩, ⟨.zpx, 0x95#8, 2, 4, false⟩, ⟨.abs, 0x8D#8, 3, 4, false⟩,
      ⟨.abx, 0x9D#8, 3, 5, false⟩, ⟨.aby, 0x99#8, 3, 5, false⟩, ⟨.izx, 0x81#8, 2, 6, false⟩, ⟨.izy, 0x91#8, 2, 6, false⟩,
      ⟨.izp, 0x92#8, 2, 5, false⟩] (fun s => s.a) ∧
  WriteRule .stx [⟨.zp, 0x86#8, 2, 3, false⟩, ⟨.zpy, 0x96#8, 2, 4, false⟩, ⟨.abs, 0x8E#8, 3, 4, false⟩] (fun s => s.x) ∧
  WriteRule .sty [⟨.zp, 0x84#8, 2, 3, false⟩, ⟨.zpx, 0x94#8, 2, 4, false⟩, ⟨.abs, 0x8C#8, 3, 4, false⟩] (fun s => s.y) ∧
  WriteRule .stz [⟨.zp, 0x64#8, 2, 3, false⟩, ⟨.zpx, 0x74#8, 2, 4, false⟩, ⟨.abs, 0x9C#8, 3, 4, false⟩,
      ⟨.abx, 0x9E#8, 3, 5, false⟩] (fun _ => 0x00#8)

/-- R167 to R172. -/
def Obligations.TransfersCopyARegister : Prop :=
  ImpliedRule .tax 0xAA#8 (fun s t => t.x = s.a ∧ ZNFrom s.a t ∧ StatusKept [1, 7] s t ∧ t.a = s.a ∧ t.y = s.y ∧ t.sp = s.sp) ∧
  ImpliedRule .tay 0xA8#8 (fun s t => t.y = s.a ∧ ZNFrom s.a t ∧ StatusKept [1, 7] s t ∧ t.a = s.a ∧ t.x = s.x ∧ t.sp = s.sp) ∧
  ImpliedRule .txa 0x8A#8 (fun s t => t.a = s.x ∧ ZNFrom s.x t ∧ StatusKept [1, 7] s t ∧ t.x = s.x ∧ t.y = s.y ∧ t.sp = s.sp) ∧
  ImpliedRule .tya 0x98#8 (fun s t => t.a = s.y ∧ ZNFrom s.y t ∧ StatusKept [1, 7] s t ∧ t.x = s.x ∧ t.y = s.y ∧ t.sp = s.sp) ∧
  ImpliedRule .tsx 0xBA#8 (fun s t => t.x = s.sp ∧ ZNFrom s.sp t ∧ StatusKept [1, 7] s t ∧ t.a = s.a ∧ t.y = s.y ∧ t.sp = s.sp) ∧
  ImpliedRule .txs 0x9A#8 (fun s t => t.sp = s.x ∧ t.p = s.p ∧ t.a = s.a ∧ t.x = s.x ∧ t.y = s.y)

/-! ### Stack (file 42) -/

/-- R180, R181, R184, R185 and the push sequence of R188. -/
def Obligations.PushInstructions : Prop :=
  PushRule .pha 0x48#8 (fun s => s.a) ∧ PushRule .php 0x08#8 (fun s => s.p ||| 0x30#8) ∧
  PushRule .phx 0xDA#8 (fun s => s.x) ∧ PushRule .phy 0x5A#8 (fun s => s.y)

/-- R182, R183, R186, R187 and the pull sequence of R189. -/
def Obligations.PullInstructions : Prop :=
  PullRule .pla 0x68#8 (fun v s t => t.a = v ∧ ZNFrom v t ∧ StatusKept [1, 7] s t ∧ t.x = s.x ∧ t.y = s.y) ∧
  PullRule .plp 0x28#8 (fun v s t => t.p = v ||| 0x20#8 ∧ t.a = s.a ∧ t.x = s.x ∧ t.y = s.y) ∧
  PullRule .plx 0xFA#8 (fun v s t => t.x = v ∧ ZNFrom v t ∧ StatusKept [1, 7] s t ∧ t.a = s.a ∧ t.y = s.y) ∧
  PullRule .ply 0x7A#8 (fun v s t => t.y = v ∧ ZNFrom v t ∧ StatusKept [1, 7] s t ∧ t.a = s.a ∧ t.x = s.x)

/-! ### Increment and decrement (file 43) -/

/-- R200 and R201: on memory in the rmw class, and on the accumulator; modulo 256, C and V kept. -/
def Obligations.IncrementAndDecrement : Prop :=
  let up (_ : State) (v : Byte) : Byte := BitVec.ofNat 8 (v.toNat + 1)
  let down (_ : State) (v : Byte) : Byte := BitVec.ofInt 8 ((v.toNat : Int) - 1)
  let flags (_ r : Byte) (s t : State) : Prop := ZNFrom r t ∧ StatusKept [1, 7] s t
  ModifyRule (fun m => .inc (.mem m)) [⟨.zp, 0xE6#8, 2, 5, false⟩, ⟨.zpx, 0xF6#8, 2, 6, false⟩, ⟨.abs, 0xEE#8, 3, 6, false⟩,
    ⟨.abx, 0xFE#8, 3, 7, false⟩] up flags ∧
  AccumulatorRule (.inc .acc) 0x1A#8 up flags ∧
  ModifyRule (fun m => .dec (.mem m)) [⟨.zp, 0xC6#8, 2, 5, false⟩, ⟨.zpx, 0xD6#8, 2, 6, false⟩, ⟨.abs, 0xCE#8, 3, 6, false⟩,
    ⟨.abx, 0xDE#8, 3, 7, false⟩] down flags ∧
  AccumulatorRule (.dec .acc) 0x3A#8 down flags

/-- R202 to R205. -/
def Obligations.IndexRegisterSteps : Prop :=
  ImpliedRule .inx 0xE8#8 (fun s t => t.x = BitVec.ofNat 8 (s.x.toNat + 1) ∧ ZNFrom t.x t ∧ StatusKept [1, 7] s t ∧
    t.a = s.a ∧ t.y = s.y ∧ t.sp = s.sp) ∧
  ImpliedRule .iny 0xC8#8 (fun s t => t.y = BitVec.ofNat 8 (s.y.toNat + 1) ∧ ZNFrom t.y t ∧ StatusKept [1, 7] s t ∧
    t.a = s.a ∧ t.x = s.x ∧ t.sp = s.sp) ∧
  ImpliedRule .dex 0xCA#8 (fun s t => t.x = BitVec.ofInt 8 ((s.x.toNat : Int) - 1) ∧ ZNFrom t.x t ∧ StatusKept [1, 7] s t ∧
    t.a = s.a ∧ t.y = s.y ∧ t.sp = s.sp) ∧
  ImpliedRule .dey 0x88#8 (fun s t => t.y = BitVec.ofInt 8 ((s.y.toNat : Int) - 1) ∧ ZNFrom t.y t ∧ StatusKept [1, 7] s t ∧
    t.a = s.a ∧ t.x = s.x ∧ t.sp = s.sp)

/-! ### Add, subtract and compare (file 44) -/

/-- R215 and R216: the flags of the ALU are those of integer arithmetic; V is exactly the signed overflow. -/
def Obligations.AluMeetsIntegerArithmetic : Prop :=
  ∀ (a b : Byte) (c : Bool),
    (let r := aluAdc a b c
     let sum : Nat := a.toNat + b.toNat + c.toNat
     let signed : Int := a.toInt + b.toInt + c.toNat
     r.result.toNat = sum % 256 ∧ (r.c = true ↔ 255 < sum) ∧
     (r.v = true ↔ (a ^^^ r.result) &&& (b ^^^ r.result) &&& 0x80#8 ≠ 0#8) ∧
     (r.v = true ↔ signed < -128 ∨ 127 < signed) ∧
     (r.z = true ↔ r.result = 0#8) ∧ r.n = r.result.getLsbD 7) ∧
    (let r := aluSbc a b c
     let diff : Int := (a.toNat : Int) - b.toNat - (1 - c.toNat)
     let signed : Int := a.toInt - b.toInt - (1 - c.toNat)
     r = aluAdc a (~~~b) c ∧
     (r.result.toNat : Int) = diff % 256 ∧ (r.c = true ↔ 0 ≤ diff) ∧
     (r.v = true ↔ (a ^^^ r.result) &&& (~~~b ^^^ r.result) &&& 0x80#8 ≠ 0#8) ∧
     (r.v = true ↔ signed < -128 ∨ 127 < signed) ∧
     (r.z = true ↔ r.result = 0#8) ∧ r.n = r.result.getLsbD 7)

/-- The inverse law: subtracting what was added, with the carry complemented, gives the first operand back, and the carry out
is the complement of the first carry out. -/
def Obligations.SubtractUndoesAdd : Prop :=
  ∀ (a b : Byte) (c : Bool),
    (aluSbc (aluAdc a b c).result b (!c)).result = a ∧ (aluSbc (aluAdc a b c).result b (!c)).c = !(aluAdc a b c).c

/-- R210 and R211. -/
def Obligations.AddAndSubtract : Prop :=
  ReadRule .adc [⟨.imm, 0x69#8, 2, 2, false⟩, ⟨.zp, 0x65#8, 2, 3, false⟩, ⟨.zpx, 0x75#8, 2, 4, false⟩,
      ⟨.abs, 0x6D#8, 3, 4, false⟩, ⟨.abx, 0x7D#8, 3, 4, true⟩, ⟨.aby, 0x79#8, 3, 4, true⟩, ⟨.izx, 0x61#8, 2, 6, false⟩,
      ⟨.izy, 0x71#8, 2, 5, true⟩, ⟨.izp, 0x72#8, 2, 5, false⟩]
    (fun m s t =>
      let sum : Nat := s.a.toNat + m.toNat + s.flagC.toNat
      let signed : Int := s.a.toInt + m.toInt + s.flagC.toNat
      t.a = BitVec.ofNat 8 sum ∧ t.flagC = decide (255 < sum) ∧ t.flagV = decide (signed < -128 ∨ 127 < signed) ∧
      ZNFrom t.a t ∧ StatusKept [0, 1, 6, 7] s t ∧ t.x = s.x ∧ t.y = s.y ∧ t.sp = s.sp) ∧
  ReadRule .sbc [⟨.imm, 0xE9#8, 2, 2, false⟩, ⟨.zp, 0xE5#8, 2, 3, false⟩, ⟨.zpx, 0xF5#8, 2, 4, false⟩,
      ⟨.abs, 0xED#8, 3, 4, false⟩, ⟨.abx, 0xFD#8, 3, 4, true⟩, ⟨.aby, 0xF9#8, 3, 4, true⟩, ⟨.izx, 0xE1#8, 2, 6, false⟩,
      ⟨.izy, 0xF1#8, 2, 5, true⟩, ⟨.izp, 0xF2#8, 2, 5, false⟩]
    (fun m s t =>
      let diff : Int := (s.a.toNat : Int) - m.toNat - (1 - s.flagC.toNat)
      let signed : Int := s.a.toInt - m.toInt - (1 - s.flagC.toNat)
      t.a = BitVec.ofInt 8 diff ∧ t.flagC = decide (0 ≤ diff) ∧ t.flagV = decide (signed < -128 ∨ 127 < signed) ∧
      ZNFrom t.a t ∧ StatusKept [0, 1, 6, 7] s t ∧ t.x = s.x ∧ t.y = s.y ∧ t.sp = s.sp)

/-- R212 to R214: a compare changes C, Z and N alone; V and the register are kept, and the carry in is not read. -/
def Obligations.Compares : Prop :=
  let effect (reg : State → Byte) (m : Byte) (s t : State) : Prop :=
    t.flagC = decide (m.toNat ≤ (reg s).toNat) ∧ t.flagZ = decide (reg s = m) ∧
    t.flagN = (BitVec.ofInt 8 (((reg s).toNat : Int) - m.toNat)).getLsbD 7 ∧ StatusKept [0, 1, 7] s t ∧ RegsKept s t
  ReadRule .cmp [⟨.imm, 0xC9#8, 2, 2, false⟩, ⟨.zp, 0xC5#8, 2, 3, false⟩, ⟨.zpx, 0xD5#8, 2, 4, false⟩,
      ⟨.abs, 0xCD#8, 3, 4, false⟩, ⟨.abx, 0xDD#8, 3, 4, true⟩, ⟨.aby, 0xD9#8, 3, 4, true⟩, ⟨.izx, 0xC1#8, 2, 6, false⟩,
      ⟨.izy, 0xD1#8, 2, 5, true⟩, ⟨.izp, 0xD2#8, 2, 5, false⟩] (effect fun s => s.a) ∧
  ReadRule .cpx [⟨.imm, 0xE0#8, 2, 2, false⟩, ⟨.zp, 0xE4#8, 2, 3, false⟩, ⟨.abs, 0xEC#8, 3, 4, false⟩]
    (effect fun s => s.x) ∧
  ReadRule .cpy [⟨.imm, 0xC0#8, 2, 2, false⟩, ⟨.zp, 0xC4#8, 2, 3, false⟩, ⟨.abs, 0xCC#8, 3, 4, false⟩]
    (effect fun s => s.y)

/-- Decimal mode is ignored: ADC and SBC do the same whatever flag D holds, in the same cycles and accesses, and keep it. -/
def Obligations.DecimalFlagIsIgnored : Prop :=
  ∀ (src : Src) (s : State) (d : Bool) (i : Instr), i = .adc src ∨ i = .sbc src →
    ∃ t t', exec i s = .next t ∧ exec i (s.putFlag 3 d) = .next t' ∧
      t'.setP t.p = t ∧ StatusKept [3] t t' ∧ t.flagD = s.flagD ∧ t'.flagD = d

/-! ### Logic, shifts and bits (file 45) -/

/-- R220 to R222. -/
def Obligations.LogicOperations : Prop :=
  let effect (f : Byte → Byte → Byte) (m : Byte) (s t : State) : Prop :=
    t.a = f s.a m ∧ ZNFrom t.a t ∧ StatusKept [1, 7] s t ∧ t.x = s.x ∧ t.y = s.y ∧ t.sp = s.sp
  ReadRule .and [⟨.imm, 0x29#8, 2, 2, false⟩, ⟨.zp, 0x25#8, 2, 3, false⟩, ⟨.zpx, 0x35#8, 2, 4, false⟩,
      ⟨.abs, 0x2D#8, 3, 4, false⟩, ⟨.abx, 0x3D#8, 3, 4, true⟩, ⟨.aby, 0x39#8, 3, 4, true⟩, ⟨.izx, 0x21#8, 2, 6, false⟩,
      ⟨.izy, 0x31#8, 2, 5, true⟩, ⟨.izp, 0x32#8, 2, 5, false⟩] (effect fun a m => a &&& m) ∧
  ReadRule .ora [⟨.imm, 0x09#8, 2, 2, false⟩, ⟨.zp, 0x05#8, 2, 3, false⟩, ⟨.zpx, 0x15#8, 2, 4, false⟩,
      ⟨.abs, 0x0D#8, 3, 4, false⟩, ⟨.abx, 0x1D#8, 3, 4, true⟩, ⟨.aby, 0x19#8, 3, 4, true⟩, ⟨.izx, 0x01#8, 2, 6, false⟩,
      ⟨.izy, 0x11#8, 2, 5, true⟩, ⟨.izp, 0x12#8, 2, 5, false⟩] (effect fun a m => a ||| m) ∧
  ReadRule .eor [⟨.imm, 0x49#8, 2, 2, false⟩, ⟨.zp, 0x45#8, 2, 3, false⟩, ⟨.zpx, 0x55#8, 2, 4, false⟩,
      ⟨.abs, 0x4D#8, 3, 4, false⟩, ⟨.abx, 0x5D#8, 3, 4, true⟩, ⟨.aby, 0x59#8, 3, 4, true⟩, ⟨.izx, 0x41#8, 2, 6, false⟩,
      ⟨.izy, 0x51#8, 2, 5, true⟩, ⟨.izp, 0x52#8, 2, 5, false⟩] (effect fun a m => a ^^^ m)

/-- R223: Z from `A & M` in every form; N and V from bits 7 and 6 of M in the memory forms alone; A is not changed. -/
def Obligations.BitTestFlags : Prop :=
  (ReadRule .bit [⟨.zp, 0x24#8, 2, 3, false⟩, ⟨.abs, 0x2C#8, 3, 4, false⟩, ⟨.zpx, 0x34#8, 2, 4, false⟩,
      ⟨.abx, 0x3C#8, 3, 4, true⟩, ⟨.imm, 0x89#8, 2, 2, false⟩]
    (fun m s t => RegsKept s t ∧ t.flagZ = decide (s.a &&& m = 0#8) ∧ StatusKept [1, 6, 7] s t)) ∧
  (∀ v s t, exec (.bit (.imm v)) s = .next t → StatusKept [1] s t) ∧
  ∀ m s t, exec (.bit (.mem m)) s = .next t →
    ∃ v, Returns s (effAddr m .read s).1 v ∧ ReadLogs (.mem m) v s t ∧
      t.flagN = v.getLsbD 7 ∧ t.flagV = v.getLsbD 6 ∧ t.flagZ = decide (s.a &&& v = 0#8)

/-- R224 to R227: the result bit by bit, C from the bit shifted out, Z and N from the result. -/
def Obligations.ShiftsAndRotates : Prop :=
  let left (carryIn : State → Bool) (s : State) (v : Byte) : Byte := BitVec.ofNat 8 (2 * v.toNat + (carryIn s).toNat)
  let right (carryIn : State → Bool) (s : State) (v : Byte) : Byte := BitVec.ofNat 8 (v.toNat / 2 + 128 * (carryIn s).toNat)
  let flags (out : Nat) (v r : Byte) (s t : State) : Prop :=
    t.flagC = v.getLsbD out ∧ ZNFrom r t ∧ StatusKept [0, 1, 7] s t
  (ModifyRule (fun m => .asl (.mem m)) [⟨.zp, 0x06#8, 2, 5, false⟩, ⟨.zpx, 0x16#8, 2, 6, false⟩, ⟨.abs, 0x0E#8, 3, 6, false⟩,
    ⟨.abx, 0x1E#8, 3, 7, false⟩] (left fun _ => false) (flags 7) ∧
   AccumulatorRule (.asl .acc) 0x0A#8 (left fun _ => false) (flags 7)) ∧
  (ModifyRule (fun m => .lsr (.mem m)) [⟨.zp, 0x46#8, 2, 5, false⟩, ⟨.zpx, 0x56#8, 2, 6, false⟩, ⟨.abs, 0x4E#8, 3, 6, false⟩,
    ⟨.abx, 0x5E#8, 3, 7, false⟩] (right fun _ => false) (flags 0) ∧
   AccumulatorRule (.lsr .acc) 0x4A#8 (right fun _ => false) (flags 0)) ∧
  (ModifyRule (fun m => .rol (.mem m)) [⟨.zp, 0x26#8, 2, 5, false⟩, ⟨.zpx, 0x36#8, 2, 6, false⟩, ⟨.abs, 0x2E#8, 3, 6, false⟩,
    ⟨.abx, 0x3E#8, 3, 7, false⟩] (left fun s => s.flagC) (flags 7) ∧
   AccumulatorRule (.rol .acc) 0x2A#8 (left fun s => s.flagC) (flags 7)) ∧
  (ModifyRule (fun m => .ror (.mem m)) [⟨.zp, 0x66#8, 2, 5, false⟩, ⟨.zpx, 0x76#8, 2, 6, false⟩, ⟨.abs, 0x6E#8, 3, 6, false⟩,
    ⟨.abx, 0x7E#8, 3, 7, false⟩] (right fun s => s.flagC) (flags 0) ∧
   AccumulatorRule (.ror .acc) 0x6A#8 (right fun s => s.flagC) (flags 0))

/-- R228 and R229: Z from the old byte, then the bits of A are set or cleared in it; no other flag changes. -/
def Obligations.TestAndSetOrResetBits : Prop :=
  let flags (v _ : Byte) (s t : State) : Prop := t.flagZ = decide (s.a &&& v = 0#8) ∧ StatusKept [1] s t
  ModifyRule .tsb [⟨.zp, 0x04#8, 2, 5, false⟩, ⟨.abs, 0x0C#8, 3, 6, false⟩] (fun s v => v ||| s.a) flags ∧
  ModifyRule .trb [⟨.zp, 0x14#8, 2, 5, false⟩, ⟨.abs, 0x1C#8, 3, 6, false⟩] (fun s v => v &&& ~~~s.a) flags

/-! ### Flag operations (file 46) -/

/-- R240 to R246. -/
def Obligations.FlagOperations : Prop :=
  FlagRule .clc 0x18#8 0 false ∧ FlagRule .sec 0x38#8 0 true ∧ FlagRule .cld 0xD8#8 3 false ∧ FlagRule .sed 0xF8#8 3 true ∧
  FlagRule .cli 0x58#8 2 false ∧ FlagRule .sei 0x78#8 2 true ∧ FlagRule .clv 0xB8#8 6 false

/-! ### Jumps, calls and branches (file 47) -/

/-- R250 to R252. -/
def Obligations.Jumps : Prop :=
  ∀ (a : Addr) (s : State),
    (encode (.jmpAbs a) = some [0x4C#8, loByte a, hiByte a] ∧
      ∃ t, exec (.jmpAbs a) s = .next t ∧ t.pc = a ∧ Logs s t [] ∧ Costs (.jmpAbs a) s t 3 ∧
        RegsKept s t ∧ t.p = s.p ∧ t.run = s.run ∧ SameStored s t ∧ SameEnv s t) ∧
    (encode (.jmpInd a) = some [0x6C#8, loByte a, hiByte a] ∧
      ∃ w lo hi t, exec (.jmpInd a) s = .next t ∧
        Returns s (s.pc - 1#16) w ∧ Returns s a lo ∧ Returns s (a + 1#16) hi ∧ t.pc = mkAddr hi lo ∧
        Logs s t [.read (s.pc - 1#16) w, .read a lo, .read (a + 1#16) hi] ∧ Costs (.jmpInd a) s t 6 ∧
        RegsKept s t ∧ t.p = s.p ∧ t.run = s.run ∧ SameStored s t ∧ SameEnv s t) ∧
    (encode (.jmpIax a) = some [0x7C#8, loByte a, hiByte a] ∧
      let ptr : Addr := BitVec.ofNat 16 (a.toNat + s.x.toNat)
      ∃ w lo hi t, exec (.jmpIax a) s = .next t ∧
        Returns s (s.pc - 1#16) w ∧ Returns s ptr lo ∧ Returns s (ptr + 1#16) hi ∧ t.pc = mkAddr hi lo ∧
        Logs s t [.read (s.pc - 1#16) w, .read ptr lo, .read (ptr + 1#16) hi] ∧ Costs (.jmpIax a) s t 6 ∧
        RegsKept s t ∧ t.p = s.p ∧ t.run = s.run ∧ SameStored s t ∧ SameEnv s t)

/-- R253: the address of the JSR's third byte is pushed, high byte first. -/
def Obligations.JumpToSubroutine : Prop :=
  ∀ (a : Addr) (s : State), encode (.jsr a) = some [0x20#8, loByte a, hiByte a] ∧
    let ret := s.pc - 1#16
    ∃ d t, exec (.jsr a) s = .next t ∧ t.pc = a ∧ t.sp = s.sp - 2#8 ∧
      (∀ b, t.stored b = if b = stackAddr (s.sp - 1#8) then some (loByte ret)
        else if b = stackAddr s.sp then some (hiByte ret) else s.stored b) ∧
      s.stored (stackAddr s.sp) = some d ∧
      Logs s t [.read (stackAddr s.sp) d, .write (stackAddr s.sp) (hiByte ret), .write (stackAddr (s.sp - 1#8)) (loByte ret)] ∧
      Costs (.jsr a) s t 6 ∧
      t.a = s.a ∧ t.x = s.x ∧ t.y = s.y ∧ t.p = s.p ∧ t.run = s.run ∧ SameEnv s t

/-- R254: RTS resumes at the popped address plus 1. -/
def Obligations.ReturnFromSubroutine : Prop :=
  encode .rts = some [0x60#8] ∧
  ∀ s : State, ∃ w d lo hi w' t, exec .rts s = .next t ∧
    s.stored (stackAddr (s.sp + 1#8)) = some lo ∧ s.stored (stackAddr (s.sp + 2#8)) = some hi ∧
    t.pc = mkAddr hi lo + 1#16 ∧ t.sp = s.sp + 2#8 ∧
    Returns s s.pc w ∧ s.stored (stackAddr s.sp) = some d ∧ Returns s (mkAddr hi lo) w' ∧
    Logs s t [.read s.pc w, .read (stackAddr s.sp) d, .read (stackAddr (s.sp + 1#8)) lo, .read (stackAddr (s.sp + 2#8)) hi,
      .read (mkAddr hi lo) w'] ∧
    Costs .rts s t 6 ∧
    t.a = s.a ∧ t.x = s.x ∧ t.y = s.y ∧ t.p = s.p ∧ t.run = s.run ∧ SameStored s t ∧ SameEnv s t

/-- R265: a JSR and the RTS at its target restore PC to the next instruction and SP, and keep A, X, Y and P, in 12 cycles.
The second premise on the target says that it still holds `$60` after the pushes. -/
def Obligations.SubroutineRoundTrip : Prop :=
  ∀ (s t : State) (lo hi : Byte), Quiet s →
    s.stored s.pc = some 0x20#8 → s.stored (s.pc + 1#16) = some lo → s.stored (s.pc + 2#16) = some hi →
    step s = .next t → t.stored (mkAddr hi lo) = some 0x60#8 →
    t.pc = mkAddr hi lo ∧
    ∃ u, step t = .next u ∧ u.pc = s.pc + 3#16 ∧ u.sp = s.sp ∧ u.a = s.a ∧ u.x = s.x ∧ u.y = s.y ∧ u.p = s.p ∧
      u.cyc = s.cyc + 12 ∧ Quiet u ∧
      u.stored (stackAddr s.sp) = some (hiByte (s.pc + 2#16)) ∧
      u.stored (stackAddr (s.sp - 1#8)) = some (loByte (s.pc + 2#16)) ∧
      ∀ b, b ≠ stackAddr s.sp → b ≠ stackAddr (s.sp - 1#8) → u.stored b = s.stored b

/-- R255 to R264. -/
def Obligations.ConditionalBranches : Prop :=
  BranchRule .bpl 0x10#8 (fun s => !s.flagN) ∧ BranchRule .bmi 0x30#8 (fun s => s.flagN) ∧
  BranchRule .bvc 0x50#8 (fun s => !s.flagV) ∧ BranchRule .bvs 0x70#8 (fun s => s.flagV) ∧
  BranchRule .bcc 0x90#8 (fun s => !s.flagC) ∧ BranchRule .bcs 0xB0#8 (fun s => s.flagC) ∧
  BranchRule .bne 0xD0#8 (fun s => !s.flagZ) ∧ BranchRule .beq 0xF0#8 (fun s => s.flagZ) ∧
  BranchRule .bra 0x80#8 (fun _ => true)

/-! ### BRK, RTI, no-operations and HALT (file 48) -/

/-- R270: BRK skips its signature byte, pushes PC and P with B = 1, sets I and loads PC from `$FFFE/$FFFF`. -/
def Obligations.BreakSequence : Prop :=
  encode .brk = some [0x00#8] ∧
  ∀ s : State, ∃ sig lo hi t, exec .brk s = .next t ∧
    let ret := s.pc + 1#16
    let pushed := s.p ||| 0x30#8
    Returns s s.pc sig ∧ s.stored 0xFFFE#16 = some lo ∧ s.stored 0xFFFF#16 = some hi ∧
    t.pc = mkAddr hi lo ∧ t.sp = s.sp - 3#8 ∧ t.a = s.a ∧ t.x = s.x ∧ t.y = s.y ∧ t.run = s.run ∧ SameEnv s t ∧
    t.flagI = true ∧ (s.params.intClearsD = true → t.flagD = false) ∧
    StatusKept (if s.params.intClearsD then [2, 3] else [2]) s t ∧
    (∀ b, t.stored b =
      if b = stackAddr (s.sp - 2#8) then some pushed
      else if b = stackAddr (s.sp - 1#8) then some (loByte ret)
      else if b = stackAddr s.sp then some (hiByte ret)
      else s.stored b) ∧
    Logs s t [.read s.pc sig, .write (stackAddr s.sp) (hiByte ret), .write (stackAddr (s.sp - 1#8)) (loByte ret),
      .write (stackAddr (s.sp - 2#8)) pushed, .read 0xFFFE#16 lo, .read 0xFFFF#16 hi] ∧
    Costs .brk s t 7

/-- R271: RTI pops P, then PC low, then PC high, and does not add 1. -/
def Obligations.ReturnFromInterrupt : Prop :=
  encode .rti = some [0x40#8] ∧
  ∀ s : State, ∃ w d p lo hi t, exec .rti s = .next t ∧
    s.stored (stackAddr (s.sp + 1#8)) = some p ∧ s.stored (stackAddr (s.sp + 2#8)) = some lo ∧
    s.stored (stackAddr (s.sp + 3#8)) = some hi ∧
    t.p = p ||| 0x20#8 ∧ t.pc = mkAddr hi lo ∧ t.sp = s.sp + 3#8 ∧
    Returns s s.pc w ∧ s.stored (stackAddr s.sp) = some d ∧
    Logs s t [.read s.pc w, .read (stackAddr s.sp) d, .read (stackAddr (s.sp + 1#8)) p, .read (stackAddr (s.sp + 2#8)) lo,
      .read (stackAddr (s.sp + 3#8)) hi] ∧
    Costs .rti s t 6 ∧
    t.a = s.a ∧ t.x = s.x ∧ t.y = s.y ∧ t.run = s.run ∧ SameStored s t ∧ SameEnv s t

/-- After BRK and an RTI as the handler's first instruction the program goes on behind the signature byte, with SP, A, X and Y
as they were, P as it was but for the stored bits 4 and 5, which are 1, and only three stack bytes written. -/
def Obligations.BreakAndReturn : Prop :=
  ∀ s t : State, Quiet s → s.stored s.pc = some 0x00#8 → step s = .next t → t.stored t.pc = some 0x40#8 →
    ∃ u, step t = .next u ∧ u.pc = s.pc + 2#16 ∧ u.sp = s.sp ∧ u.a = s.a ∧ u.x = s.x ∧ u.y = s.y ∧
      u.p = s.p ||| 0x30#8 ∧ u.cyc = s.cyc + 13 ∧ Quiet u ∧
      ∀ b, b ≠ stackAddr s.sp → b ≠ stackAddr (s.sp - 1#8) → b ≠ stackAddr (s.sp - 2#8) → u.stored b = s.stored b

/-- R272 to R278: the documented no-operation and the six classes. -/
def Obligations.NoOperations : Prop :=
  ∀ (s : State) (op d : Byte) (a : Addr),
    (encode .nop = some [0xEA#8] ∧ ∃ w t, exec .nop s = .next t ∧ NothingChanged s t ∧
      Returns s s.pc w ∧ Logs s t [.read s.pc w] ∧ Costs .nop s t 2) ∧
    (encode (.nop1 op) = some [op] ∧ ∃ t, exec (.nop1 op) s = .next t ∧ NothingChanged s t ∧
      Logs s t [] ∧ Costs (.nop1 op) s t 1 ∧
      ∀ v : Variant, Instr.wf v (.nop1 op) = true ↔ op.toNat % 16 = 0x3 ∨
        (op.toNat % 16 = 0xB ∧ ¬ (v.waiStp = .wdc ∧ (op = 0xCB#8 ∨ op = 0xDB#8))) ∨
        (v.bitops = .nop ∧ (op.toNat % 16 = 0x7 ∨ op.toNat % 16 = 0xF))) ∧
    (encode (.nopImm op d) = some [op, d] ∧ ∃ t, exec (.nopImm op d) s = .next t ∧ NothingChanged s t ∧
      Logs s t [] ∧ Costs (.nopImm op d) s t 2 ∧
      (Instr.wf .table (.nopImm op d) = true ↔ op.toNat ∈ [0x22, 0x42, 0x62, 0x82, 0xC2, 0xE2])) ∧
    (encode (.nopZp d) = some [0x44#8, d] ∧ ∃ v t, exec (.nopZp d) s = .next t ∧ NothingChanged s t ∧
      s.stored (zeroPage d) = some v ∧ Logs s t [.read (zeroPage d) v] ∧ Costs (.nopZp d) s t 3) ∧
    (encode (.nopZpx op d) = some [op, d] ∧ ∃ v v' t, exec (.nopZpx op d) s = .next t ∧ NothingChanged s t ∧
      s.stored (zeroPage d) = some v ∧ s.stored (zeroPage (d + s.x)) = some v' ∧
      Logs s t [.read (zeroPage d) v, .read (zeroPage (d + s.x)) v'] ∧ Costs (.nopZpx op d) s t 4 ∧
      (Instr.wf .table (.nopZpx op d) = true ↔ op.toNat ∈ [0x54, 0xD4, 0xF4])) ∧
    (encode (.nopAbs op a) = some [op, loByte a, hiByte a] ∧ ∃ v t, exec (.nopAbs op a) s = .next t ∧ NothingChanged s t ∧
      Returns s a v ∧ Logs s t [.read a v] ∧ Costs (.nopAbs op a) s t 4 ∧
      (Instr.wf .table (.nopAbs op a) = true ↔ op.toNat ∈ [0xDC, 0xFC])) ∧
    (encode (.nopAbs8 a) = some [0x5C#8, loByte a, hiByte a] ∧ ∃ t, exec (.nopAbs8 a) s = .next t ∧ NothingChanged s t ∧
      Logs s t [.idle 5] ∧ Costs (.nopAbs8 a) s t 8)

/-- R281: HALT changes RUN alone, in one cycle, and the run has ended: no step from there changes anything. STP (R296) differs
in its two dummy reads and in the name of the state. That a step from there answers the same state is the model's convention
(log entry 7). -/
def Obligations.HaltAndStopEndTheRun : Prop :=
  ∀ s : State,
    (encode .halt = some [0x02#8] ∧ ∃ t, exec .halt s = .next t ∧ t.run = .halted ∧
      RegsKept s t ∧ t.p = s.p ∧ t.pc = s.pc ∧ SameStored s t ∧ SameEnv s t ∧ Logs s t [] ∧ Costs .halt s t 1 ∧
      ∀ n, Host.Core.run Sys2Proof.core n t = .next t) ∧
    (encode .stp = some [0xDB#8] ∧ ∃ w w' t, exec .stp s = .next t ∧ t.run = .stopped ∧
      RegsKept s t ∧ t.p = s.p ∧ t.pc = s.pc ∧ SameStored s t ∧ SameEnv s t ∧
      Returns s s.pc w ∧ Returns s s.pc w' ∧ Logs s t [.read s.pc w, .read s.pc w'] ∧ Costs .stp s t 3 ∧
      ∀ n, Host.Core.run Sys2Proof.core n t = .next t)

/-! ### Parameter-gated instructions (file 49) -/

/-- R291 and R293. -/
def Obligations.ResetAndSetMemoryBit : Prop :=
  ∀ (n : BitVec 3) (d : Byte) (s : State) (value : Bool),
    let i : Instr := if value then .smb n d else .rmb n d
    let base : Nat := if value then 0x87 else 0x07
    encode i = some [BitVec.ofNat 8 (base + 0x10 * n.toNat), d] ∧
    ∃ v r t, exec i s = .next t ∧ s.stored (zeroPage d) = some v ∧
      (∀ k, k < 8 → r.getLsbD k = if k = n.toNat then value else v.getLsbD k) ∧
      StoresAt (zeroPage d) r s t ∧
      Logs s t [.read (zeroPage d) v, .read (zeroPage d) v, .write (zeroPage d) r] ∧ Costs i s t 5 ∧
      RegsKept s t ∧ t.p = s.p ∧ t.pc = s.pc ∧ t.run = s.run ∧ SameEnv s t

/-- R292 and R294: the zero-page byte is read twice, then the offset byte is fetched, then the branch of R264 follows.
`s.pc` is the address of the offset byte. In the first part the branch goes by the operand `off` while the byte fetched is `o`:
that `exec`, outside a step, takes the operand for the offset is the model's choice (log entry 8). The second part says of a
whole step that the fetched byte is the offset. -/
def Obligations.BranchOnMemoryBit : Prop :=
  (∀ (n : BitVec 3) (d off : Byte) (s : State) (value : Bool),
    let i : Instr := if value then .bbs n d off else .bbr n d off
    let base : Nat := if value then 0x8F else 0x0F
    let next := s.setPc (s.pc + 1#16)
    encode i = some [BitVec.ofNat 8 (base + 0x10 * n.toNat), d, off] ∧
    ∃ v o t events, exec i s = .next t ∧ s.stored (zeroPage d) = some v ∧ Returns s s.pc o ∧
      Branches (v.getLsbD n.toNat == value) off next t events ∧
      Logs s t ([.read (zeroPage d) v, .read (zeroPage d) v, .read s.pc o] ++ events) ∧ Costs i s t (5 + events.length) ∧
      RegsKept s t ∧ t.p = s.p ∧ t.run = s.run ∧ SameStored s t ∧ SameEnv s t) ∧
  ∀ (s t : State) (b0 d v : Byte), Quiet s → s.params.variant.bitops = .rockwell → b0.toNat % 16 = 0xF →
    s.stored s.pc = some b0 → s.stored (s.pc + 1#16) = some d → s.stored (zeroPage d) = some v → step s = .next t →
    ∃ off events, Returns s (s.pc + 2#16) off ∧
      Branches (v.getLsbD (b0.toNat / 16 % 8) == decide (0x80 ≤ b0.toNat)) off (s.setPc (s.pc + 3#16)) t events ∧
      Logs s t ([.read s.pc b0, .read (s.pc + 1#16) d, .read (zeroPage d) v, .read (zeroPage d) v,
        .read (s.pc + 2#16) off] ++ events)
end

