-- ==== Sys2Proof/Laws/Memory.lean ====
section
/-! SUPPORT. Laws/Memory.lean: what the operations on an array of cells do, and that they keep its canonical form. -/

namespace Sys2Proof.Machine

theorem Memory.read_erase (blank : Nat → Byte) (m : Memory) (a b : Nat) :
    (m.erase a).read blank b = if b = a then blank a else m.read blank b := by
  induction m with
  | nil => simp only [Memory.erase, List.filter_nil, Memory.read]; split <;> simp_all
  | cons c rest ih =>
    obtain ⟨k, v⟩ := c
    by_cases hk : k = a
    · have he : Memory.erase ((k, v) :: rest) a = Memory.erase rest a := by simp [Memory.erase, hk]
      rw [he, ih]
      split
      · rfl
      · next hb => simp [Memory.read, hk, Ne.symm hb]
    · have he : Memory.erase ((k, v) :: rest) a = (k, v) :: Memory.erase rest a := by simp [Memory.erase, hk]
      rw [he]
      by_cases hkb : k = b
      · subst hkb; simp [Memory.read, hk]
      · simp [Memory.read, hkb, ih]

theorem Memory.read_insert (blank : Nat → Byte) (m : Memory) (a : Nat) (v : Byte) (b : Nat)
    (h : ∀ c ∈ m, c.1 ≠ a) : (m.insert a v).read blank b = if b = a then v else m.read blank b := by
  induction m with
  | nil => simp [Memory.insert, Memory.read, eq_comm]
  | cons c rest ih =>
    obtain ⟨k, u⟩ := c
    have hk : k ≠ a := h (k, u) (by simp)
    have hr : ∀ c ∈ rest, c.1 ≠ a := fun c hc => h c (by simp [hc])
    unfold Memory.insert
    split
    · by_cases hb : b = a
      · simp [Memory.read, hb]
      · simp [Memory.read, hb, Ne.symm hb]
    · by_cases hkb : k = b
      · subst hkb; simp [Memory.read, hk]
      · simp [Memory.read, hkb, ih hr]

/-- Reading after a write, at the same index and at every other. -/
theorem Memory.read_write (blank : Nat → Byte) (m : Memory) (a : Nat) (v : Byte) (b : Nat) :
    (m.write blank a v).read blank b = if b = a then v else m.read blank b := by
  unfold Memory.write
  split
  · next hv => rw [Memory.read_erase, hv]
  · rw [Memory.read_insert]
    · split
      · rfl
      · next hb => rw [Memory.read_erase, if_neg hb]
    · intro c hc
      simpa [Memory.erase] using (List.mem_filter.mp hc).2

theorem Memory.wfFrom_mono {blank : Nat → Byte} {size low low' : Nat} {m : Memory} (hl : low' ≤ low)
    (h : Memory.wfFrom blank size low m = true) : Memory.wfFrom blank size low' m = true := by
  cases m with
  | nil => rfl
  | cons c rest =>
    simp only [Memory.wfFrom, Bool.and_eq_true, decide_eq_true_eq] at h ⊢
    exact ⟨⟨⟨le_trans hl h.1.1.1, h.1.1.2⟩, h.1.2⟩, h.2⟩

theorem Memory.wfFrom_erase {blank : Nat → Byte} {size low : Nat} {m : Memory} (a : Nat)
    (h : Memory.wfFrom blank size low m = true) : Memory.wfFrom blank size low (m.erase a) = true := by
  induction m generalizing low with
  | nil => rfl
  | cons c rest ih =>
    obtain ⟨k, v⟩ := c
    simp only [Memory.wfFrom, Bool.and_eq_true, decide_eq_true_eq] at h
    by_cases hk : k = a
    · have he : Memory.erase ((k, v) :: rest) a = Memory.erase rest a := by simp [Memory.erase, hk]
      rw [he]
      exact ih (Memory.wfFrom_mono (by omega) h.2)
    · have he : Memory.erase ((k, v) :: rest) a = (k, v) :: Memory.erase rest a := by simp [Memory.erase, hk]
      rw [he]
      simp only [Memory.wfFrom, Bool.and_eq_true, decide_eq_true_eq]
      exact ⟨h.1, ih h.2⟩

theorem Memory.wfFrom_insert {blank : Nat → Byte} {size low a : Nat} {v : Byte} {m : Memory} (hl : low ≤ a)
    (ha : a < size) (hv : v ≠ blank a) (hm : ∀ c ∈ m, c.1 ≠ a) (h : Memory.wfFrom blank size low m = true) :
    Memory.wfFrom blank size low (m.insert a v) = true := by
  induction m generalizing low with
  | nil => simp [Memory.insert, Memory.wfFrom, hl, ha, hv]
  | cons c rest ih =>
    obtain ⟨k, u⟩ := c
    have hk : k ≠ a := hm (k, u) (by simp)
    simp only [Memory.wfFrom, Bool.and_eq_true, decide_eq_true_eq] at h
    unfold Memory.insert
    split
    · simp only [Memory.wfFrom, Bool.and_eq_true, decide_eq_true_eq]
      exact ⟨⟨⟨hl, ha⟩, by simpa using hv⟩, ⟨⟨by omega, h.1.1.2⟩, h.1.2⟩, h.2⟩
    · simp only [Memory.wfFrom, Bool.and_eq_true, decide_eq_true_eq]
      exact ⟨h.1, ih (by omega) (fun c hc => hm c (by simp [hc])) h.2⟩

/-- A write inside the array keeps the canonical form. -/
theorem Memory.wf_write {blank : Nat → Byte} {size a : Nat} {m : Memory} (v : Byte) (ha : a < size)
    (h : m.wf blank size = true) : (m.write blank a v).wf blank size = true := by
  unfold Memory.write
  split
  · exact Memory.wfFrom_erase a h
  · next hv =>
    exact Memory.wfFrom_insert (Nat.zero_le _) ha hv
      (fun c hc => by simpa [Memory.erase] using (List.mem_filter.mp hc).2) (Memory.wfFrom_erase a h)

/-- An empty list of cells is canonical. -/
@[simp] theorem Memory.wf_nil (blank : Nat → Byte) (size : Nat) : Memory.wf blank size [] = true := rfl

end Sys2Proof.Machine
end

