-- ==== Sys2Proof/Laws/State.lean ====
section
/-! SUPPORT. Laws/State.lean: one lemma for each field and each basic update, and the composed operations written by the
basic ones, so that no proof unfolds a record update. -/

namespace Sys2Proof.Machine

/-! ### setA -/

@[simp] theorem State.setA_a (s : State) (v : Byte) : (s.setA v).a = v := rfl
@[simp] theorem State.setA_x (s : State) (v : Byte) : (s.setA v).x = s.x := rfl
@[simp] theorem State.setA_y (s : State) (v : Byte) : (s.setA v).y = s.y := rfl
@[simp] theorem State.setA_sp (s : State) (v : Byte) : (s.setA v).sp = s.sp := rfl
@[simp] theorem State.setA_pc (s : State) (v : Byte) : (s.setA v).pc = s.pc := rfl
@[simp] theorem State.setA_p (s : State) (v : Byte) : (s.setA v).p = s.p := rfl
@[simp] theorem State.setA_ram (s : State) (v : Byte) : (s.setA v).ram = s.ram := rfl
@[simp] theorem State.setA_ramFill (s : State) (v : Byte) : (s.setA v).ramFill = s.ramFill := rfl
@[simp] theorem State.setA_run (s : State) (v : Byte) : (s.setA v).run = s.run := rfl
@[simp] theorem State.setA_cyc (s : State) (v : Byte) : (s.setA v).cyc = s.cyc := rfl
@[simp] theorem State.setA_log (s : State) (v : Byte) : (s.setA v).log = s.log := rfl
@[simp] theorem State.setA_irqLine (s : State) (v : Byte) : (s.setA v).irqLine = s.irqLine := rfl
@[simp] theorem State.setA_nmiPending (s : State) (v : Byte) : (s.setA v).nmiPending = s.nmiPending := rfl
@[simp] theorem State.setA_stopRequested (s : State) (v : Byte) : (s.setA v).stopRequested = s.stopRequested := rfl
@[simp] theorem State.setA_inputs (s : State) (v : Byte) : (s.setA v).inputs = s.inputs := rfl
@[simp] theorem State.setA_draws (s : State) (v : Byte) : (s.setA v).draws = s.draws := rfl
@[simp] theorem State.setA_params (s : State) (v : Byte) : (s.setA v).params = s.params := rfl
@[simp] theorem State.setA_busLog (s : State) (v : Byte) : (s.setA v).busLog = s.busLog := rfl
@[simp] theorem State.setA_stored (s : State) (v : Byte) (b : Addr) : (s.setA v).stored b = s.stored b := rfl
@[simp] theorem State.setA_busByte (s : State) (v : Byte) (b : Addr) : (s.setA v).busByte b = s.busByte b := rfl

/-! ### setX -/

@[simp] theorem State.setX_a (s : State) (v : Byte) : (s.setX v).a = s.a := rfl
@[simp] theorem State.setX_x (s : State) (v : Byte) : (s.setX v).x = v := rfl
@[simp] theorem State.setX_y (s : State) (v : Byte) : (s.setX v).y = s.y := rfl
@[simp] theorem State.setX_sp (s : State) (v : Byte) : (s.setX v).sp = s.sp := rfl
@[simp] theorem State.setX_pc (s : State) (v : Byte) : (s.setX v).pc = s.pc := rfl
@[simp] theorem State.setX_p (s : State) (v : Byte) : (s.setX v).p = s.p := rfl
@[simp] theorem State.setX_ram (s : State) (v : Byte) : (s.setX v).ram = s.ram := rfl
@[simp] theorem State.setX_ramFill (s : State) (v : Byte) : (s.setX v).ramFill = s.ramFill := rfl
@[simp] theorem State.setX_run (s : State) (v : Byte) : (s.setX v).run = s.run := rfl
@[simp] theorem State.setX_cyc (s : State) (v : Byte) : (s.setX v).cyc = s.cyc := rfl
@[simp] theorem State.setX_log (s : State) (v : Byte) : (s.setX v).log = s.log := rfl
@[simp] theorem State.setX_irqLine (s : State) (v : Byte) : (s.setX v).irqLine = s.irqLine := rfl
@[simp] theorem State.setX_nmiPending (s : State) (v : Byte) : (s.setX v).nmiPending = s.nmiPending := rfl
@[simp] theorem State.setX_stopRequested (s : State) (v : Byte) : (s.setX v).stopRequested = s.stopRequested := rfl
@[simp] theorem State.setX_inputs (s : State) (v : Byte) : (s.setX v).inputs = s.inputs := rfl
@[simp] theorem State.setX_draws (s : State) (v : Byte) : (s.setX v).draws = s.draws := rfl
@[simp] theorem State.setX_params (s : State) (v : Byte) : (s.setX v).params = s.params := rfl
@[simp] theorem State.setX_busLog (s : State) (v : Byte) : (s.setX v).busLog = s.busLog := rfl
@[simp] theorem State.setX_stored (s : State) (v : Byte) (b : Addr) : (s.setX v).stored b = s.stored b := rfl
@[simp] theorem State.setX_busByte (s : State) (v : Byte) (b : Addr) : (s.setX v).busByte b = s.busByte b := rfl

/-! ### setY -/

@[simp] theorem State.setY_a (s : State) (v : Byte) : (s.setY v).a = s.a := rfl
@[simp] theorem State.setY_x (s : State) (v : Byte) : (s.setY v).x = s.x := rfl
@[simp] theorem State.setY_y (s : State) (v : Byte) : (s.setY v).y = v := rfl
@[simp] theorem State.setY_sp (s : State) (v : Byte) : (s.setY v).sp = s.sp := rfl
@[simp] theorem State.setY_pc (s : State) (v : Byte) : (s.setY v).pc = s.pc := rfl
@[simp] theorem State.setY_p (s : State) (v : Byte) : (s.setY v).p = s.p := rfl
@[simp] theorem State.setY_ram (s : State) (v : Byte) : (s.setY v).ram = s.ram := rfl
@[simp] theorem State.setY_ramFill (s : State) (v : Byte) : (s.setY v).ramFill = s.ramFill := rfl
@[simp] theorem State.setY_run (s : State) (v : Byte) : (s.setY v).run = s.run := rfl
@[simp] theorem State.setY_cyc (s : State) (v : Byte) : (s.setY v).cyc = s.cyc := rfl
@[simp] theorem State.setY_log (s : State) (v : Byte) : (s.setY v).log = s.log := rfl
@[simp] theorem State.setY_irqLine (s : State) (v : Byte) : (s.setY v).irqLine = s.irqLine := rfl
@[simp] theorem State.setY_nmiPending (s : State) (v : Byte) : (s.setY v).nmiPending = s.nmiPending := rfl
@[simp] theorem State.setY_stopRequested (s : State) (v : Byte) : (s.setY v).stopRequested = s.stopRequested := rfl
@[simp] theorem State.setY_inputs (s : State) (v : Byte) : (s.setY v).inputs = s.inputs := rfl
@[simp] theorem State.setY_draws (s : State) (v : Byte) : (s.setY v).draws = s.draws := rfl
@[simp] theorem State.setY_params (s : State) (v : Byte) : (s.setY v).params = s.params := rfl
@[simp] theorem State.setY_busLog (s : State) (v : Byte) : (s.setY v).busLog = s.busLog := rfl
@[simp] theorem State.setY_stored (s : State) (v : Byte) (b : Addr) : (s.setY v).stored b = s.stored b := rfl
@[simp] theorem State.setY_busByte (s : State) (v : Byte) (b : Addr) : (s.setY v).busByte b = s.busByte b := rfl

/-! ### setSp -/

@[simp] theorem State.setSp_a (s : State) (v : Byte) : (s.setSp v).a = s.a := rfl
@[simp] theorem State.setSp_x (s : State) (v : Byte) : (s.setSp v).x = s.x := rfl
@[simp] theorem State.setSp_y (s : State) (v : Byte) : (s.setSp v).y = s.y := rfl
@[simp] theorem State.setSp_sp (s : State) (v : Byte) : (s.setSp v).sp = v := rfl
@[simp] theorem State.setSp_pc (s : State) (v : Byte) : (s.setSp v).pc = s.pc := rfl
@[simp] theorem State.setSp_p (s : State) (v : Byte) : (s.setSp v).p = s.p := rfl
@[simp] theorem State.setSp_ram (s : State) (v : Byte) : (s.setSp v).ram = s.ram := rfl
@[simp] theorem State.setSp_ramFill (s : State) (v : Byte) : (s.setSp v).ramFill = s.ramFill := rfl
@[simp] theorem State.setSp_run (s : State) (v : Byte) : (s.setSp v).run = s.run := rfl
@[simp] theorem State.setSp_cyc (s : State) (v : Byte) : (s.setSp v).cyc = s.cyc := rfl
@[simp] theorem State.setSp_log (s : State) (v : Byte) : (s.setSp v).log = s.log := rfl
@[simp] theorem State.setSp_irqLine (s : State) (v : Byte) : (s.setSp v).irqLine = s.irqLine := rfl
@[simp] theorem State.setSp_nmiPending (s : State) (v : Byte) : (s.setSp v).nmiPending = s.nmiPending := rfl
@[simp] theorem State.setSp_stopRequested (s : State) (v : Byte) : (s.setSp v).stopRequested = s.stopRequested := rfl
@[simp] theorem State.setSp_inputs (s : State) (v : Byte) : (s.setSp v).inputs = s.inputs := rfl
@[simp] theorem State.setSp_draws (s : State) (v : Byte) : (s.setSp v).draws = s.draws := rfl
@[simp] theorem State.setSp_params (s : State) (v : Byte) : (s.setSp v).params = s.params := rfl
@[simp] theorem State.setSp_busLog (s : State) (v : Byte) : (s.setSp v).busLog = s.busLog := rfl
@[simp] theorem State.setSp_stored (s : State) (v : Byte) (b : Addr) : (s.setSp v).stored b = s.stored b := rfl
@[simp] theorem State.setSp_busByte (s : State) (v : Byte) (b : Addr) : (s.setSp v).busByte b = s.busByte b := rfl

/-! ### setPc -/

@[simp] theorem State.setPc_a (s : State) (v : Addr) : (s.setPc v).a = s.a := rfl
@[simp] theorem State.setPc_x (s : State) (v : Addr) : (s.setPc v).x = s.x := rfl
@[simp] theorem State.setPc_y (s : State) (v : Addr) : (s.setPc v).y = s.y := rfl
@[simp] theorem State.setPc_sp (s : State) (v : Addr) : (s.setPc v).sp = s.sp := rfl
@[simp] theorem State.setPc_pc (s : State) (v : Addr) : (s.setPc v).pc = v := rfl
@[simp] theorem State.setPc_p (s : State) (v : Addr) : (s.setPc v).p = s.p := rfl
@[simp] theorem State.setPc_ram (s : State) (v : Addr) : (s.setPc v).ram = s.ram := rfl
@[simp] theorem State.setPc_ramFill (s : State) (v : Addr) : (s.setPc v).ramFill = s.ramFill := rfl
@[simp] theorem State.setPc_run (s : State) (v : Addr) : (s.setPc v).run = s.run := rfl
@[simp] theorem State.setPc_cyc (s : State) (v : Addr) : (s.setPc v).cyc = s.cyc := rfl
@[simp] theorem State.setPc_log (s : State) (v : Addr) : (s.setPc v).log = s.log := rfl
@[simp] theorem State.setPc_irqLine (s : State) (v : Addr) : (s.setPc v).irqLine = s.irqLine := rfl
@[simp] theorem State.setPc_nmiPending (s : State) (v : Addr) : (s.setPc v).nmiPending = s.nmiPending := rfl
@[simp] theorem State.setPc_stopRequested (s : State) (v : Addr) : (s.setPc v).stopRequested = s.stopRequested := rfl
@[simp] theorem State.setPc_inputs (s : State) (v : Addr) : (s.setPc v).inputs = s.inputs := rfl
@[simp] theorem State.setPc_draws (s : State) (v : Addr) : (s.setPc v).draws = s.draws := rfl
@[simp] theorem State.setPc_params (s : State) (v : Addr) : (s.setPc v).params = s.params := rfl
@[simp] theorem State.setPc_busLog (s : State) (v : Addr) : (s.setPc v).busLog = s.busLog := rfl
@[simp] theorem State.setPc_stored (s : State) (v : Addr) (b : Addr) : (s.setPc v).stored b = s.stored b := rfl
@[simp] theorem State.setPc_busByte (s : State) (v : Addr) (b : Addr) : (s.setPc v).busByte b = s.busByte b := rfl

/-! ### setP -/

@[simp] theorem State.setP_a (s : State) (v : Byte) : (s.setP v).a = s.a := rfl
@[simp] theorem State.setP_x (s : State) (v : Byte) : (s.setP v).x = s.x := rfl
@[simp] theorem State.setP_y (s : State) (v : Byte) : (s.setP v).y = s.y := rfl
@[simp] theorem State.setP_sp (s : State) (v : Byte) : (s.setP v).sp = s.sp := rfl
@[simp] theorem State.setP_pc (s : State) (v : Byte) : (s.setP v).pc = s.pc := rfl
@[simp] theorem State.setP_p (s : State) (v : Byte) : (s.setP v).p = v := rfl
@[simp] theorem State.setP_ram (s : State) (v : Byte) : (s.setP v).ram = s.ram := rfl
@[simp] theorem State.setP_ramFill (s : State) (v : Byte) : (s.setP v).ramFill = s.ramFill := rfl
@[simp] theorem State.setP_run (s : State) (v : Byte) : (s.setP v).run = s.run := rfl
@[simp] theorem State.setP_cyc (s : State) (v : Byte) : (s.setP v).cyc = s.cyc := rfl
@[simp] theorem State.setP_log (s : State) (v : Byte) : (s.setP v).log = s.log := rfl
@[simp] theorem State.setP_irqLine (s : State) (v : Byte) : (s.setP v).irqLine = s.irqLine := rfl
@[simp] theorem State.setP_nmiPending (s : State) (v : Byte) : (s.setP v).nmiPending = s.nmiPending := rfl
@[simp] theorem State.setP_stopRequested (s : State) (v : Byte) : (s.setP v).stopRequested = s.stopRequested := rfl
@[simp] theorem State.setP_inputs (s : State) (v : Byte) : (s.setP v).inputs = s.inputs := rfl
@[simp] theorem State.setP_draws (s : State) (v : Byte) : (s.setP v).draws = s.draws := rfl
@[simp] theorem State.setP_params (s : State) (v : Byte) : (s.setP v).params = s.params := rfl
@[simp] theorem State.setP_busLog (s : State) (v : Byte) : (s.setP v).busLog = s.busLog := rfl
@[simp] theorem State.setP_stored (s : State) (v : Byte) (b : Addr) : (s.setP v).stored b = s.stored b := rfl
@[simp] theorem State.setP_busByte (s : State) (v : Byte) (b : Addr) : (s.setP v).busByte b = s.busByte b := rfl

/-! ### setRun -/

@[simp] theorem State.setRun_a (s : State) (v : Run) : (s.setRun v).a = s.a := rfl
@[simp] theorem State.setRun_x (s : State) (v : Run) : (s.setRun v).x = s.x := rfl
@[simp] theorem State.setRun_y (s : State) (v : Run) : (s.setRun v).y = s.y := rfl
@[simp] theorem State.setRun_sp (s : State) (v : Run) : (s.setRun v).sp = s.sp := rfl
@[simp] theorem State.setRun_pc (s : State) (v : Run) : (s.setRun v).pc = s.pc := rfl
@[simp] theorem State.setRun_p (s : State) (v : Run) : (s.setRun v).p = s.p := rfl
@[simp] theorem State.setRun_ram (s : State) (v : Run) : (s.setRun v).ram = s.ram := rfl
@[simp] theorem State.setRun_ramFill (s : State) (v : Run) : (s.setRun v).ramFill = s.ramFill := rfl
@[simp] theorem State.setRun_run (s : State) (v : Run) : (s.setRun v).run = v := rfl
@[simp] theorem State.setRun_cyc (s : State) (v : Run) : (s.setRun v).cyc = s.cyc := rfl
@[simp] theorem State.setRun_log (s : State) (v : Run) : (s.setRun v).log = s.log := rfl
@[simp] theorem State.setRun_irqLine (s : State) (v : Run) : (s.setRun v).irqLine = s.irqLine := rfl
@[simp] theorem State.setRun_nmiPending (s : State) (v : Run) : (s.setRun v).nmiPending = s.nmiPending := rfl
@[simp] theorem State.setRun_stopRequested (s : State) (v : Run) : (s.setRun v).stopRequested = s.stopRequested := rfl
@[simp] theorem State.setRun_inputs (s : State) (v : Run) : (s.setRun v).inputs = s.inputs := rfl
@[simp] theorem State.setRun_draws (s : State) (v : Run) : (s.setRun v).draws = s.draws := rfl
@[simp] theorem State.setRun_params (s : State) (v : Run) : (s.setRun v).params = s.params := rfl
@[simp] theorem State.setRun_busLog (s : State) (v : Run) : (s.setRun v).busLog = s.busLog := rfl
@[simp] theorem State.setRun_stored (s : State) (v : Run) (b : Addr) : (s.setRun v).stored b = s.stored b := rfl
@[simp] theorem State.setRun_busByte (s : State) (v : Run) (b : Addr) : (s.setRun v).busByte b = s.busByte b := rfl

/-! ### afterRead -/

@[simp] theorem State.afterRead_a (s : State) (a : Addr) : (s.afterRead a).a = s.a := rfl
@[simp] theorem State.afterRead_x (s : State) (a : Addr) : (s.afterRead a).x = s.x := rfl
@[simp] theorem State.afterRead_y (s : State) (a : Addr) : (s.afterRead a).y = s.y := rfl
@[simp] theorem State.afterRead_sp (s : State) (a : Addr) : (s.afterRead a).sp = s.sp := rfl
@[simp] theorem State.afterRead_pc (s : State) (a : Addr) : (s.afterRead a).pc = s.pc := rfl
@[simp] theorem State.afterRead_p (s : State) (a : Addr) : (s.afterRead a).p = s.p := rfl
@[simp] theorem State.afterRead_ram (s : State) (a : Addr) : (s.afterRead a).ram = s.ram := rfl
@[simp] theorem State.afterRead_ramFill (s : State) (a : Addr) : (s.afterRead a).ramFill = s.ramFill := rfl
@[simp] theorem State.afterRead_run (s : State) (a : Addr) : (s.afterRead a).run = s.run := rfl
@[simp] theorem State.afterRead_cyc (s : State) (a : Addr) : (s.afterRead a).cyc = s.cyc + 1 := rfl
@[simp] theorem State.afterRead_log (s : State) (a : Addr) : (s.afterRead a).log = .read a (s.busByte a) :: s.log := rfl
@[simp] theorem State.afterRead_irqLine (s : State) (a : Addr) : (s.afterRead a).irqLine = s.irqLine := rfl
@[simp] theorem State.afterRead_nmiPending (s : State) (a : Addr) : (s.afterRead a).nmiPending = s.nmiPending := rfl
@[simp] theorem State.afterRead_stopRequested (s : State) (a : Addr) : (s.afterRead a).stopRequested = s.stopRequested := rfl
@[simp] theorem State.afterRead_inputs (s : State) (a : Addr) : (s.afterRead a).inputs = s.inputs := rfl
@[simp] theorem State.afterRead_draws (s : State) (a : Addr) : (s.afterRead a).draws = if (s.stored a).isSome then s.draws else s.draws + 1 := rfl
@[simp] theorem State.afterRead_params (s : State) (a : Addr) : (s.afterRead a).params = s.params := rfl
@[simp] theorem State.afterRead_stored (s : State) (a b : Addr) : (s.afterRead a).stored b = s.stored b := rfl
@[simp] theorem State.afterRead_busLog (s : State) (a : Addr) :
    (s.afterRead a).busLog = s.busLog ++ [.read a (s.busByte a)] := by simp [State.busLog]

/-! ### memWrite -/

@[simp] theorem State.memWrite_a (s : State) (a : Addr) (v : Byte) :
    (s.memWrite a v).a = s.a := rfl
@[simp] theorem State.memWrite_x (s : State) (a : Addr) (v : Byte) :
    (s.memWrite a v).x = s.x := rfl
@[simp] theorem State.memWrite_y (s : State) (a : Addr) (v : Byte) :
    (s.memWrite a v).y = s.y := rfl
@[simp] theorem State.memWrite_sp (s : State) (a : Addr) (v : Byte) :
    (s.memWrite a v).sp = s.sp := rfl
@[simp] theorem State.memWrite_pc (s : State) (a : Addr) (v : Byte) :
    (s.memWrite a v).pc = s.pc := rfl
@[simp] theorem State.memWrite_p (s : State) (a : Addr) (v : Byte) :
    (s.memWrite a v).p = s.p := rfl
@[simp] theorem State.memWrite_ram (s : State) (a : Addr) (v : Byte) :
    (s.memWrite a v).ram = if region a = .sysRam then s.ram.write s.ramFill.byte a.toNat v else s.ram := rfl
@[simp] theorem State.memWrite_ramFill (s : State) (a : Addr) (v : Byte) :
    (s.memWrite a v).ramFill = s.ramFill := rfl
@[simp] theorem State.memWrite_run (s : State) (a : Addr) (v : Byte) :
    (s.memWrite a v).run = s.run := rfl
@[simp] theorem State.memWrite_cyc (s : State) (a : Addr) (v : Byte) :
    (s.memWrite a v).cyc = s.cyc + 1 := rfl
@[simp] theorem State.memWrite_log (s : State) (a : Addr) (v : Byte) :
    (s.memWrite a v).log = .write a v :: s.log := rfl
@[simp] theorem State.memWrite_irqLine (s : State) (a : Addr) (v : Byte) :
    (s.memWrite a v).irqLine = s.irqLine := rfl
@[simp] theorem State.memWrite_nmiPending (s : State) (a : Addr) (v : Byte) :
    (s.memWrite a v).nmiPending = s.nmiPending := rfl
@[simp] theorem State.memWrite_stopRequested (s : State) (a : Addr) (v : Byte) :
    (s.memWrite a v).stopRequested = s.stopRequested := rfl
@[simp] theorem State.memWrite_inputs (s : State) (a : Addr) (v : Byte) :
    (s.memWrite a v).inputs = s.inputs := rfl
@[simp] theorem State.memWrite_draws (s : State) (a : Addr) (v : Byte) :
    (s.memWrite a v).draws = s.draws := rfl
@[simp] theorem State.memWrite_params (s : State) (a : Addr) (v : Byte) :
    (s.memWrite a v).params = s.params := rfl
@[simp] theorem State.memWrite_busLog (s : State) (a : Addr) (v : Byte) :
    (s.memWrite a v).busLog = s.busLog ++ [.write a v] := by simp [State.busLog]

/-! ### idle -/

@[simp] theorem State.idle_a (s : State) (n : Nat) : (s.idle n).a = s.a := rfl
@[simp] theorem State.idle_x (s : State) (n : Nat) : (s.idle n).x = s.x := rfl
@[simp] theorem State.idle_y (s : State) (n : Nat) : (s.idle n).y = s.y := rfl
@[simp] theorem State.idle_sp (s : State) (n : Nat) : (s.idle n).sp = s.sp := rfl
@[simp] theorem State.idle_pc (s : State) (n : Nat) : (s.idle n).pc = s.pc := rfl
@[simp] theorem State.idle_p (s : State) (n : Nat) : (s.idle n).p = s.p := rfl
@[simp] theorem State.idle_ram (s : State) (n : Nat) : (s.idle n).ram = s.ram := rfl
@[simp] theorem State.idle_ramFill (s : State) (n : Nat) : (s.idle n).ramFill = s.ramFill := rfl
@[simp] theorem State.idle_run (s : State) (n : Nat) : (s.idle n).run = s.run := rfl
@[simp] theorem State.idle_cyc (s : State) (n : Nat) : (s.idle n).cyc = s.cyc + n := rfl
@[simp] theorem State.idle_log (s : State) (n : Nat) : (s.idle n).log = .idle n :: s.log := rfl
@[simp] theorem State.idle_irqLine (s : State) (n : Nat) : (s.idle n).irqLine = s.irqLine := rfl
@[simp] theorem State.idle_nmiPending (s : State) (n : Nat) : (s.idle n).nmiPending = s.nmiPending := rfl
@[simp] theorem State.idle_stopRequested (s : State) (n : Nat) : (s.idle n).stopRequested = s.stopRequested := rfl
@[simp] theorem State.idle_inputs (s : State) (n : Nat) : (s.idle n).inputs = s.inputs := rfl
@[simp] theorem State.idle_draws (s : State) (n : Nat) : (s.idle n).draws = s.draws := rfl
@[simp] theorem State.idle_params (s : State) (n : Nat) : (s.idle n).params = s.params := rfl
@[simp] theorem State.idle_stored (s : State) (n : Nat) (b : Addr) : (s.idle n).stored b = s.stored b := rfl
@[simp] theorem State.idle_busLog (s : State) (n : Nat) : (s.idle n).busLog = s.busLog ++ [.idle n] := by
  simp [State.busLog]

/-! ### The composed operations, by the basic ones -/

@[simp] theorem State.memRead_fst (s : State) (a : Addr) : (s.memRead a).1 = s.busByte a := rfl
@[simp] theorem State.memRead_snd (s : State) (a : Addr) : (s.memRead a).2 = s.afterRead a := rfl
@[simp] theorem State.dummyRead_eq (s : State) (a : Addr) : s.dummyRead a = s.afterRead a := rfl
@[simp] theorem State.implied_eq (s : State) : s.implied = s.afterRead s.pc := rfl
@[simp] theorem State.dummyStack_eq (s : State) : s.dummyStack = s.afterRead (stackAddr s.sp) := rfl
@[simp] theorem State.fetch8_fst (s : State) : s.fetch8.1 = s.busByte s.pc := rfl
@[simp] theorem State.fetch8_snd (s : State) : s.fetch8.2 = (s.afterRead s.pc).setPc (s.pc + 1#16) := rfl
@[simp] theorem State.read16_fst (s : State) (a0 a1 : Addr) :
    (s.read16 a0 a1).1 = mkAddr ((s.afterRead a0).busByte a1) (s.busByte a0) := rfl
@[simp] theorem State.read16_snd (s : State) (a0 a1 : Addr) : (s.read16 a0 a1).2 = (s.afterRead a0).afterRead a1 := rfl
@[simp] theorem State.push_eq (s : State) (v : Byte) :
    s.push v = (s.memWrite (stackAddr s.sp) v).setSp (s.sp - 1#8) := rfl
@[simp] theorem State.pop_fst (s : State) : s.pop.1 = s.busByte (stackAddr (s.sp + 1#8)) := rfl
@[simp] theorem State.pop_snd (s : State) :
    s.pop.2 = (s.setSp (s.sp + 1#8)).afterRead (stackAddr (s.sp + 1#8)) := rfl
@[simp] theorem State.pushAddr_eq (s : State) (a : Addr) : s.pushAddr a = (s.push (hiByte a)).push (loByte a) := rfl
@[simp] theorem State.popAddr_fst (s : State) : s.popAddr.1 = mkAddr s.pop.2.pop.1 s.pop.1 := rfl
@[simp] theorem State.popAddr_snd (s : State) : s.popAddr.2 = s.pop.2.pop.2 := rfl
@[simp] theorem State.setZN_eq (s : State) (v : Byte) : s.setZN v = s.setP (putZN s.p v) := rfl
@[simp] theorem State.putFlag_eq (s : State) (n : Nat) (b : Bool) : s.putFlag n b = s.setP (putBit s.p n b) := rfl
@[simp] theorem State.pushSequence_eq (s : State) (v : Byte) : s.pushSequence v = s.implied.push v := rfl
@[simp] theorem State.pullSequence_eq (s : State) : s.pullSequence = s.implied.dummyStack.pop := rfl

end Sys2Proof.Machine
end

