-- ==== Sys2Proof/Laws/Bus.lean ====
section
/-! SUPPORT. Laws/Bus.lean: the address decode by ranges, and what each bus access does to the bytes that are stored. -/

namespace Sys2Proof.Machine

/-! ### The address decode -/

theorem nibble_toNat (a : Addr) : (a.extractLsb' 12 4).toNat = a.toNat / 4096 := by
  have h := a.isLt
  simp only [BitVec.extractLsb'_toNat, Nat.shiftRight_eq_div_pow]
  omega

theorem region_sysRam_iff (a : Addr) : region a = .sysRam ↔ a.toNat < 0x8000 := by
  have h := a.isLt
  unfold region
  rw [nibble_toNat]
  generalize hn : a.toNat / 4096 = n
  have : n < 16 := by omega
  interval_cases n <;> simp <;> omega

theorem region_rom1_iff (a : Addr) : region a = .rom1 ↔ 0xC000 ≤ a.toNat ∧ a.toNat < 0xE000 := by
  have h := a.isLt
  unfold region
  rw [nibble_toNat]
  generalize hn : a.toNat / 4096 = n
  have : n < 16 := by omega
  interval_cases n <;> simp <;> omega

theorem region_rom0_iff (a : Addr) : region a = .rom0 ↔ 0xE000 ≤ a.toNat := by
  have h := a.isLt
  unfold region
  rw [nibble_toNat]
  generalize hn : a.toNat / 4096 = n
  have : n < 16 := by omega
  interval_cases n <;> simp <;> omega

theorem romOffset_toNat (a : Addr) : (a &&& 0x1FFF#16).toNat = a.toNat % 0x2000 := by
  rw [BitVec.toNat_and]
  exact Nat.and_two_pow_sub_one_eq_mod a.toNat 13

theorem State.stored_sysRam {s : State} {a : Addr} (h : a.toNat < 0x8000) :
    s.stored a = some (s.ram.read s.ramFill.byte a.toNat) := by
  simp [State.stored, (region_sysRam_iff a).mpr h]

theorem State.stored_rom1 {s : State} {a : Addr} (h : 0xC000 ≤ a.toNat) (h' : a.toNat < 0xE000) :
    s.stored a = some (Memory.read romBlank s.params.rom1 (a.toNat - 0xC000)) := by
  have ho : a.toNat % 0x2000 = a.toNat - 0xC000 := by omega
  simp only [State.stored, (region_rom1_iff a).mpr ⟨h, h'⟩, romOffset_toNat, ho]

theorem State.stored_rom0 {s : State} {a : Addr} (h : 0xE000 ≤ a.toNat) :
    s.stored a = some (Memory.read romBlank s.params.rom0 (a.toNat - 0xE000)) := by
  have := a.isLt
  have ho : a.toNat % 0x2000 = a.toNat - 0xE000 := by omega
  simp only [State.stored, (region_rom0_iff a).mpr h, romOffset_toNat, ho]

theorem State.stored_eq_none_iff {s : State} {a : Addr} :
    s.stored a = none ↔ 0x8000 ≤ a.toNat ∧ a.toNat < 0xC000 := by
  have h := a.isLt
  unfold State.stored region
  rw [nibble_toNat]
  generalize hn : a.toNat / 4096 = n
  have : n < 16 := by omega
  interval_cases n <;> simp <;> omega

/-! ### Zero page and stack page -/

theorem mkAddr_toNat (hi lo : Byte) : (mkAddr hi lo).toNat = hi.toNat * 256 + lo.toNat := by
  have := lo.isLt
  simp only [mkAddr, BitVec.toNat_append]
  rw [Nat.shiftLeft_eq, Nat.mul_comm, ← Nat.two_pow_add_eq_or_of_lt (by simpa using this)]

@[simp] theorem zeroPage_toNat (d : Byte) : (zeroPage d).toNat = d.toNat := by simp [zeroPage, mkAddr_toNat]

@[simp] theorem stackAddr_toNat (sp : Byte) : (stackAddr sp).toNat = 256 + sp.toNat := by
  simp [stackAddr, mkAddr_toNat]

@[simp] theorem region_zeroPage (d : Byte) : region (zeroPage d) = .sysRam := by
  rw [region_sysRam_iff, zeroPage_toNat]; omega

@[simp] theorem region_stackAddr (sp : Byte) : region (stackAddr sp) = .sysRam := by
  rw [region_sysRam_iff, stackAddr_toNat]; omega

theorem stackAddr_inj {p q : Byte} : stackAddr p = stackAddr q ↔ p = q := by
  refine ⟨fun h => ?_, fun h => by rw [h]⟩
  have := congrArg BitVec.toNat h
  simp only [stackAddr_toNat] at this
  exact BitVec.eq_of_toNat_eq (by omega)

/-! ### Reads -/

theorem State.busByte_of_stored {s : State} {a : Addr} {v : Byte} (h : s.stored a = some v) : s.busByte a = v := by
  simp [State.busByte, h]

theorem OpenBus.draw_mem (o : OpenBus) (n : Nat) : OpenBus.draw o n ∈ OpenBus.members o := by
  cases o with
  | fixed b => simp [OpenBus.draw, OpenBus.members]
  | oneOf first others =>
    simp only [OpenBus.draw, OpenBus.members]
    have h : Config.openBusDraw n % (others.length + 1) < (first :: others).length := by
      simpa using Nat.mod_lt _ (Nat.succ_pos _)
    rw [List.getD_eq_getElem _ _ h]
    exact List.getElem_mem h

/-- Everything a read can return: the byte that is stored, or a member of `OPEN_BUS` where none is. -/
theorem State.busByte_cases (s : State) (a : Addr) :
    s.stored a = some (s.busByte a) ∨ (s.stored a = none ∧ s.busByte a ∈ OpenBus.members s.params.openBus) := by
  cases h : s.stored a with
  | some v => exact .inl (by rw [State.busByte_of_stored h])
  | none => exact .inr ⟨rfl, by simpa [State.busByte, h] using OpenBus.draw_mem _ _⟩

/-- A read of SysRAM returns the stored byte, whatever reads came before. -/
theorem State.busByte_sysRam {s : State} {a : Addr} (h : region a = .sysRam) :
    s.busByte a = s.ram.read s.ramFill.byte a.toNat := by
  simp [State.busByte, State.stored, h]

@[simp] theorem State.afterRead_busByte_sysRam {s : State} {a b : Addr} (h : region b = .sysRam) :
    (s.afterRead a).busByte b = s.busByte b := by
  simp [State.busByte_sysRam h]

/-! ### Writes -/

/-- What a write stores: the byte at its address if that lies in SysRAM, and nothing else. -/
theorem State.memWrite_stored (s : State) (a : Addr) (v : Byte) (b : Addr) :
    (s.memWrite a v).stored b = if b = a ∧ region a = .sysRam then some v else s.stored b := by
  by_cases ha : region a = .sysRam
  · by_cases hb : b = a
    · subst hb
      simp [State.stored, ha, Memory.read_write]
    · have hne : b.toNat ≠ a.toNat := fun h => hb (BitVec.eq_of_toNat_eq h)
      simp only [State.stored, State.memWrite, ha, if_true, hb, false_and, if_false]
      cases region b <;> simp [Memory.read_write, hne]
  · simp only [State.stored, State.memWrite, ha, and_false, if_false]

/-- A write keeps the canonical form of SysRAM. -/
theorem State.memWrite_ram_wf {s : State} {a : Addr} {v : Byte} (h : s.ram.wf s.ramFill.byte 0x8000 = true) :
    (s.memWrite a v).ram.wf (s.memWrite a v).ramFill.byte 0x8000 = true := by
  simp only [State.memWrite_ram, State.memWrite_ramFill]
  split
  · next ha => exact Memory.wf_write v ((region_sysRam_iff a).mp ha) h
  · exact h

end Sys2Proof.Machine
end

