-- ==== Sys2Proof/Laws/Flags.lean ====
section
/-! SUPPORT. Laws/Flags.lean: the bits of every status byte that a flag computation makes. -/

namespace Sys2Proof.Machine

theorem putBit_getLsbD (p : Byte) (n k : Nat) (b : Bool) (hk : k < 8) :
    (putBit p n b).getLsbD k = if k = n then b else p.getLsbD k := by
  unfold putBit
  cases b <;> by_cases h : k = n
  · subst h; simp [hk]
  · have : k < n ∨ k - n ≠ 0 := by omega
    rcases this with h' | h' <;> simp [hk, h, h']
  · subst h; simp [hk]
  · have : k < n ∨ k - n ≠ 0 := by omega
    rcases this with h' | h' <;> simp [hk, h, h']

theorem putZN_getLsbD (p v : Byte) (k : Nat) (hk : k < 8) :
    (putZN p v).getLsbD k = if k = 7 then v.msb else if k = 1 then v == 0#8 else p.getLsbD k := by
  simp [putZN, putBit_getLsbD _ _ _ _ hk]

theorem putAlu_getLsbD (p : Byte) (r : AluResult) (k : Nat) (hk : k < 8) :
    (putAlu p r).getLsbD k =
      if k = 7 then r.n else if k = 1 then r.z else if k = 6 then r.v else if k = 0 then r.c else p.getLsbD k := by
  simp [putAlu, putBit_getLsbD _ _ _ _ hk]

theorem putShift_getLsbD (p : Byte) (r : ShiftResult) (k : Nat) (hk : k < 8) :
    (putShift p r).getLsbD k =
      if k = 7 then r.result.msb else if k = 1 then r.result == 0#8 else if k = 0 then r.c else p.getLsbD k := by
  simp [putShift, putZN_getLsbD _ _ _ hk, putBit_getLsbD _ _ _ _ hk]

theorem putTest_getLsbD (p a m : Byte) (k : Nat) (hk : k < 8) :
    (putTest p a m).getLsbD k = if k = 1 then a &&& m == 0#8 else p.getLsbD k := by
  simp [putTest, putBit_getLsbD _ _ _ _ hk]

theorem putBitTest_getLsbD (p a m : Byte) (k : Nat) (hk : k < 8) :
    (putBitTest p a m).getLsbD k =
      if k = 7 then m.getLsbD 7 else if k = 6 then m.getLsbD 6 else if k = 1 then a &&& m == 0#8 else p.getLsbD k := by
  simp [putBitTest, putBit_getLsbD _ _ _ _ hk, putTest_getLsbD _ _ _ _ hk]

theorem putCompare_getLsbD (p reg m : Byte) (k : Nat) (hk : k < 8) :
    (putCompare p reg m).getLsbD k =
      if k = 7 then (reg - m).msb else if k = 1 then reg - m == 0#8
      else if k = 0 then decide (m.toNat ≤ reg.toNat) else p.getLsbD k := by
  have hx : (m ^^^ 0xFF#8).toNat = 255 - m.toNat := by
    have : m ^^^ 0xFF#8 = ~~~m := by rw [← BitVec.xor_allOnes]; rfl
    rw [this, BitVec.toNat_not]
  have ht : BitVec.ofNat 8 (reg.toNat + (m ^^^ 0xFF#8).toNat + 1) = reg - m := by
    apply BitVec.eq_of_toNat_eq
    have := m.isLt
    rw [BitVec.toNat_ofNat, BitVec.toNat_sub, hx]
    congr 1
    omega
  have hc : (reg.toNat + (m ^^^ 0xFF#8).toNat + 1 > 0xFF) ↔ m.toNat ≤ reg.toNat := by
    have := m.isLt
    rw [hx]; omega
  simp only [putCompare, putZN_getLsbD _ _ _ hk, putBit_getLsbD _ _ _ _ hk, ht]
  simp only [decide_eq_decide.mpr hc]

theorem pushedStatus_getLsbD (bSet : Bool) (p : Byte) (k : Nat) (hk : k < 8) :
    (pushedStatus bSet p).getLsbD k = if k = 5 then true else if k = 4 then bSet else p.getLsbD k := by
  cases bSet <;> simp only [pushedStatus] <;> interval_cases k <;> simp

theorem restoredStatus_getLsbD (v : Byte) (k : Nat) (hk : k < 8) :
    (restoredStatus v).getLsbD k = if k = 5 then true else v.getLsbD k := by
  simp only [restoredStatus]; interval_cases k <;> simp

end Sys2Proof.Machine
end

