-- ==== Sys2Proof/Laws/Operands.lean ====
section
/-! SUPPORT. Laws/Operands.lean: what the addressing modes and the operation classes can do: apart from the one write of the
write and rmw classes they only read. -/

namespace Sys2Proof.Machine

/-- Only bus reads and idle cycles lie between two states: cycles, log and free values aside, nothing changed. -/
def ReadsOnly (s t : State) : Prop := t = { s with cyc := t.cyc, log := t.log, draws := t.draws }

theorem ReadsOnly.refl (s : State) : ReadsOnly s s := rfl

theorem ReadsOnly.trans {s t u : State} (h : ReadsOnly s t) (h' : ReadsOnly t u) : ReadsOnly s u := by
  unfold ReadsOnly at *
  rw [h'] at *
  rw [h]

theorem ReadsOnly.a {s t : State} (h : ReadsOnly s t) : t.a = s.a := by rw [h]
theorem ReadsOnly.x {s t : State} (h : ReadsOnly s t) : t.x = s.x := by rw [h]
theorem ReadsOnly.y {s t : State} (h : ReadsOnly s t) : t.y = s.y := by rw [h]
theorem ReadsOnly.sp {s t : State} (h : ReadsOnly s t) : t.sp = s.sp := by rw [h]
theorem ReadsOnly.pc {s t : State} (h : ReadsOnly s t) : t.pc = s.pc := by rw [h]
theorem ReadsOnly.p {s t : State} (h : ReadsOnly s t) : t.p = s.p := by rw [h]
theorem ReadsOnly.ram {s t : State} (h : ReadsOnly s t) : t.ram = s.ram := by rw [h]
theorem ReadsOnly.ramFill {s t : State} (h : ReadsOnly s t) : t.ramFill = s.ramFill := by rw [h]
theorem ReadsOnly.run {s t : State} (h : ReadsOnly s t) : t.run = s.run := by rw [h]
theorem ReadsOnly.irqLine {s t : State} (h : ReadsOnly s t) : t.irqLine = s.irqLine := by rw [h]
theorem ReadsOnly.nmiPending {s t : State} (h : ReadsOnly s t) : t.nmiPending = s.nmiPending := by rw [h]
theorem ReadsOnly.stopRequested {s t : State} (h : ReadsOnly s t) : t.stopRequested = s.stopRequested := by rw [h]
theorem ReadsOnly.inputs {s t : State} (h : ReadsOnly s t) : t.inputs = s.inputs := by rw [h]
theorem ReadsOnly.params {s t : State} (h : ReadsOnly s t) : t.params = s.params := by rw [h]
theorem ReadsOnly.stored {s t : State} (h : ReadsOnly s t) (b : Addr) : t.stored b = s.stored b := by rw [h]; rfl

theorem ReadsOnly.busByte_sysRam {s t : State} (h : ReadsOnly s t) {b : Addr} (hb : region b = .sysRam) :
    t.busByte b = s.busByte b := by
  rw [State.busByte_sysRam hb, State.busByte_sysRam hb, h.ram, h.ramFill]

theorem State.afterRead_readsOnly (s : State) (a : Addr) : ReadsOnly s (s.afterRead a) := rfl

theorem State.idle_readsOnly (s : State) (n : Nat) : ReadsOnly s (s.idle n) := rfl

theorem State.read16_readsOnly (s : State) (a0 a1 : Addr) : ReadsOnly s (s.read16 a0 a1).2 := rfl

/-! ### Effective addresses -/

theorem indexed_fst (base : Addr) (index : Byte) (cls : Access) (s : State) :
    (indexed base index cls s).1 = base + index.zeroExtend 16 := rfl

theorem indexed_readsOnly (base : Addr) (index : Byte) (cls : Access) (s : State) :
    ReadsOnly s (indexed base index cls s).2 := by
  simp only [indexed]
  split
  · exact State.afterRead_readsOnly _ _
  · exact ReadsOnly.refl _

/-- Computing an effective address only reads. -/
theorem effAddr_readsOnly (m : MemMode) (cls : Access) (s : State) : ReadsOnly s (effAddr m cls s).2 := by
  cases m with
  | zp d => exact ReadsOnly.refl _
  | zpx d => exact State.afterRead_readsOnly _ _
  | zpy d => exact State.afterRead_readsOnly _ _
  | abs a => exact ReadsOnly.refl _
  | abx a => exact indexed_readsOnly _ _ _ _
  | aby a => exact indexed_readsOnly _ _ _ _
  | izx d => exact (State.afterRead_readsOnly _ _).trans (State.read16_readsOnly _ _ _)
  | izy d => exact (State.read16_readsOnly _ _ _).trans (indexed_readsOnly _ _ _ _)
  | izp d => exact State.read16_readsOnly _ _ _

/-- The address of a mode does not depend on the operation class. -/
theorem effAddr_fst_cls (m : MemMode) (cls cls' : Access) (s : State) :
    (effAddr m cls s).1 = (effAddr m cls' s).1 := by
  cases m <;> rfl

/-! ### Operation classes -/

@[simp] theorem readSrc_imm (v : Byte) (s : State) : readSrc (.imm v) s = (v, s) := rfl

theorem readSrc_mem (m : MemMode) (s : State) :
    readSrc (.mem m) s =
      ((effAddr m .read s).2.busByte (effAddr m .read s).1, (effAddr m .read s).2.afterRead (effAddr m .read s).1) := rfl

/-- Reading an operand only reads. -/
theorem readSrc_readsOnly (src : Src) (s : State) : ReadsOnly s (readSrc src s).2 := by
  cases src with
  | imm v => exact ReadsOnly.refl _
  | mem m => exact (effAddr_readsOnly m .read s).trans (State.afterRead_readsOnly _ _)

theorem writeMem_eq (m : MemMode) (v : Byte) (s : State) :
    writeMem m v s = (effAddr m .write s).2.memWrite (effAddr m .write s).1 v := rfl

theorem modifyMem_fst (m : MemMode) (f : Byte → Byte) (s : State) :
    (modifyMem m f s).1 = (effAddr m .rmw s).2.busByte (effAddr m .rmw s).1 := rfl

theorem modifyMem_snd (m : MemMode) (f : Byte → Byte) (s : State) :
    (modifyMem m f s).2 =
      (((effAddr m .rmw s).2.afterRead (effAddr m .rmw s).1).afterRead (effAddr m .rmw s).1).memWrite
        (effAddr m .rmw s).1 (f (modifyMem m f s).1) := rfl

@[simp] theorem modifyTgt_acc (f : Byte → Byte) (s : State) :
    modifyTgt .acc f s = (s.a, (s.afterRead s.pc).setA (f s.a)) := rfl

@[simp] theorem modifyTgt_mem (m : MemMode) (f : Byte → Byte) (s : State) :
    modifyTgt (.mem m) f s = modifyMem m f s := rfl

/-! ### Branches -/

@[simp] theorem State.branch_false (s : State) (off : Byte) : s.branch false off = s := rfl

/-- A branch writes PC alone, apart from its dummy reads. -/
theorem State.branch_readsOnly (s : State) (cond : Bool) (off : Byte) :
    ReadsOnly (s.setPc (if cond then s.pc + sext16 off else s.pc)) (s.branch cond off) := by
  cases cond with
  | false => exact ReadsOnly.refl s
  | true =>
    simp only [State.branch, if_true]
    split <;> rfl

end Sys2Proof.Machine
end

