-- ==== Sys2Proof/Laws/PerInstr.lean ====
section
/-! SUPPORT. Laws/PerInstr.lean: facts about every instruction as syntax, one lemma for each constructor. -/

namespace Sys2Proof.Laws.Length

/-- An instruction's encoding has as many bytes as it is long, and that is one, two or three (R100, R101). -/
def Statement (i : Instr) : Prop :=
  ∀ bytes, encode i = some bytes → bytes.length = i.length ∧ 1 ≤ i.length ∧ i.length ≤ 3

theorem memOperands_length (m : MemMode) : m.operands.length ≤ 2 := by cases m <;> simp [MemMode.operands]

theorem srcOperands_length (src : Src) : src.operands.length ≤ 2 := by
  cases src with
  | imm v => simp [Src.operands]
  | mem m => exact memOperands_length m

theorem tgtOperands_length (t : Tgt) : t.operands.length ≤ 2 := by
  cases t with
  | acc => simp [Tgt.operands]
  | mem m => exact memOperands_length m

/-- The statement holds of every instruction with at most two operand bytes. -/
theorem statement_of_operands {i : Instr} (h : i.operands.length ≤ 2) : Statement i := by
  intro bytes hb
  obtain ⟨op, -, rfl⟩ := Option.map_eq_some_iff.mp hb
  simp only [Instr.length, List.length_cons]
  omega

theorem lda (src : Src) : Statement (.lda src) :=
  statement_of_operands (srcOperands_length src)
theorem ldx (src : Src) : Statement (.ldx src) :=
  statement_of_operands (srcOperands_length src)
theorem ldy (src : Src) : Statement (.ldy src) :=
  statement_of_operands (srcOperands_length src)
theorem sta (m : MemMode) : Statement (.sta m) :=
  statement_of_operands (memOperands_length m)
theorem stx (m : MemMode) : Statement (.stx m) :=
  statement_of_operands (memOperands_length m)
theorem sty (m : MemMode) : Statement (.sty m) :=
  statement_of_operands (memOperands_length m)
theorem stz (m : MemMode) : Statement (.stz m) :=
  statement_of_operands (memOperands_length m)
theorem tax : Statement .tax :=
  statement_of_operands (Nat.le_of_ble_eq_true rfl)
theorem tay : Statement .tay :=
  statement_of_operands (Nat.le_of_ble_eq_true rfl)
theorem txa : Statement .txa :=
  statement_of_operands (Nat.le_of_ble_eq_true rfl)
theorem tya : Statement .tya :=
  statement_of_operands (Nat.le_of_ble_eq_true rfl)
theorem tsx : Statement .tsx :=
  statement_of_operands (Nat.le_of_ble_eq_true rfl)
theorem txs : Statement .txs :=
  statement_of_operands (Nat.le_of_ble_eq_true rfl)
theorem pha : Statement .pha :=
  statement_of_operands (Nat.le_of_ble_eq_true rfl)
theorem php : Statement .php :=
  statement_of_operands (Nat.le_of_ble_eq_true rfl)
theorem phx : Statement .phx :=
  statement_of_operands (Nat.le_of_ble_eq_true rfl)
theorem phy : Statement .phy :=
  statement_of_operands (Nat.le_of_ble_eq_true rfl)
theorem pla : Statement .pla :=
  statement_of_operands (Nat.le_of_ble_eq_true rfl)
theorem plp : Statement .plp :=
  statement_of_operands (Nat.le_of_ble_eq_true rfl)
theorem plx : Statement .plx :=
  statement_of_operands (Nat.le_of_ble_eq_true rfl)
theorem ply : Statement .ply :=
  statement_of_operands (Nat.le_of_ble_eq_true rfl)
theorem inc (t : Tgt) : Statement (.inc t) :=
  statement_of_operands (tgtOperands_length t)
theorem dec (t : Tgt) : Statement (.dec t) :=
  statement_of_operands (tgtOperands_length t)
theorem inx : Statement .inx :=
  statement_of_operands (Nat.le_of_ble_eq_true rfl)
theorem iny : Statement .iny :=
  statement_of_operands (Nat.le_of_ble_eq_true rfl)
theorem dex : Statement .dex :=
  statement_of_operands (Nat.le_of_ble_eq_true rfl)
theorem dey : Statement .dey :=
  statement_of_operands (Nat.le_of_ble_eq_true rfl)
theorem adc (src : Src) : Statement (.adc src) :=
  statement_of_operands (srcOperands_length src)
theorem sbc (src : Src) : Statement (.sbc src) :=
  statement_of_operands (srcOperands_length src)
theorem cmp (src : Src) : Statement (.cmp src) :=
  statement_of_operands (srcOperands_length src)
theorem cpx (src : Src) : Statement (.cpx src) :=
  statement_of_operands (srcOperands_length src)
theorem cpy (src : Src) : Statement (.cpy src) :=
  statement_of_operands (srcOperands_length src)
theorem and (src : Src) : Statement (.and src) :=
  statement_of_operands (srcOperands_length src)
theorem ora (src : Src) : Statement (.ora src) :=
  statement_of_operands (srcOperands_length src)
theorem eor (src : Src) : Statement (.eor src) :=
  statement_of_operands (srcOperands_length src)
theorem bit (src : Src) : Statement (.bit src) :=
  statement_of_operands (srcOperands_length src)
theorem asl (t : Tgt) : Statement (.asl t) :=
  statement_of_operands (tgtOperands_length t)
theorem lsr (t : Tgt) : Statement (.lsr t) :=
  statement_of_operands (tgtOperands_length t)
theorem rol (t : Tgt) : Statement (.rol t) :=
  statement_of_operands (tgtOperands_length t)
theorem ror (t : Tgt) : Statement (.ror t) :=
  statement_of_operands (tgtOperands_length t)
theorem tsb (m : MemMode) : Statement (.tsb m) :=
  statement_of_operands (memOperands_length m)
theorem trb (m : MemMode) : Statement (.trb m) :=
  statement_of_operands (memOperands_length m)
theorem clc : Statement .clc :=
  statement_of_operands (Nat.le_of_ble_eq_true rfl)
theorem sec : Statement .sec :=
  statement_of_operands (Nat.le_of_ble_eq_true rfl)
theorem cld : Statement .cld :=
  statement_of_operands (Nat.le_of_ble_eq_true rfl)
theorem sed : Statement .sed :=
  statement_of_operands (Nat.le_of_ble_eq_true rfl)
theorem cli : Statement .cli :=
  statement_of_operands (Nat.le_of_ble_eq_true rfl)
theorem sei : Statement .sei :=
  statement_of_operands (Nat.le_of_ble_eq_true rfl)
theorem clv : Statement .clv :=
  statement_of_operands (Nat.le_of_ble_eq_true rfl)
theorem jmpAbs (a : Addr) : Statement (.jmpAbs a) :=
  statement_of_operands (Nat.le_of_ble_eq_true rfl)
theorem jmpInd (a : Addr) : Statement (.jmpInd a) :=
  statement_of_operands (Nat.le_of_ble_eq_true rfl)
theorem jmpIax (a : Addr) : Statement (.jmpIax a) :=
  statement_of_operands (Nat.le_of_ble_eq_true rfl)
theorem jsr (a : Addr) : Statement (.jsr a) :=
  statement_of_operands (Nat.le_of_ble_eq_true rfl)
theorem rts : Statement .rts :=
  statement_of_operands (Nat.le_of_ble_eq_true rfl)
theorem bpl (off : Byte) : Statement (.bpl off) :=
  statement_of_operands (Nat.le_of_ble_eq_true rfl)
theorem bmi (off : Byte) : Statement (.bmi off) :=
  statement_of_operands (Nat.le_of_ble_eq_true rfl)
theorem bvc (off : Byte) : Statement (.bvc off) :=
  statement_of_operands (Nat.le_of_ble_eq_true rfl)
theorem bvs (off : Byte) : Statement (.bvs off) :=
  statement_of_operands (Nat.le_of_ble_eq_true rfl)
theorem bcc (off : Byte) : Statement (.bcc off) :=
  statement_of_operands (Nat.le_of_ble_eq_true rfl)
theorem bcs (off : Byte) : Statement (.bcs off) :=
  statement_of_operands (Nat.le_of_ble_eq_true rfl)
theorem bne (off : Byte) : Statement (.bne off) :=
  statement_of_operands (Nat.le_of_ble_eq_true rfl)
theorem beq (off : Byte) : Statement (.beq off) :=
  statement_of_operands (Nat.le_of_ble_eq_true rfl)
theorem bra (off : Byte) : Statement (.bra off) :=
  statement_of_operands (Nat.le_of_ble_eq_true rfl)
theorem brk : Statement .brk :=
  statement_of_operands (Nat.le_of_ble_eq_true rfl)
theorem rti : Statement .rti :=
  statement_of_operands (Nat.le_of_ble_eq_true rfl)
theorem nop : Statement .nop :=
  statement_of_operands (Nat.le_of_ble_eq_true rfl)
theorem nop1 (op : Byte) : Statement (.nop1 op) :=
  statement_of_operands (Nat.le_of_ble_eq_true rfl)
theorem nopImm (op d : Byte) : Statement (.nopImm op d) :=
  statement_of_operands (Nat.le_of_ble_eq_true rfl)
theorem nopZp (d : Byte) : Statement (.nopZp d) :=
  statement_of_operands (Nat.le_of_ble_eq_true rfl)
theorem nopZpx (op d : Byte) : Statement (.nopZpx op d) :=
  statement_of_operands (Nat.le_of_ble_eq_true rfl)
theorem nopAbs (op : Byte) (a : Addr) : Statement (.nopAbs op a) :=
  statement_of_operands (Nat.le_of_ble_eq_true rfl)
theorem nopAbs8 (a : Addr) : Statement (.nopAbs8 a) :=
  statement_of_operands (Nat.le_of_ble_eq_true rfl)
theorem halt : Statement .halt :=
  statement_of_operands (Nat.le_of_ble_eq_true rfl)
theorem rmb (n : BitVec 3) (d : Byte) : Statement (.rmb n d) :=
  statement_of_operands (Nat.le_of_ble_eq_true rfl)
theorem smb (n : BitVec 3) (d : Byte) : Statement (.smb n d) :=
  statement_of_operands (Nat.le_of_ble_eq_true rfl)
theorem bbr (n : BitVec 3) (d off : Byte) : Statement (.bbr n d off) :=
  statement_of_operands (Nat.le_of_ble_eq_true rfl)
theorem bbs (n : BitVec 3) (d off : Byte) : Statement (.bbs n d off) :=
  statement_of_operands (Nat.le_of_ble_eq_true rfl)
theorem wai : Statement .wai :=
  statement_of_operands (Nat.le_of_ble_eq_true rfl)
theorem stp : Statement .stp :=
  statement_of_operands (Nat.le_of_ble_eq_true rfl)

end Sys2Proof.Laws.Length
end

