-- ==== Sys2Proof/Tests/Slice0.lean ====
section
/-! SUPPORT. Tests/Slice0.lean: the smoke test of WellFormed, decoding of words written out from the spec's encodings, one
step per instruction, interrupts and reset (expected values: spec/95_test_vectors.md), and a witness for every hypothesis of
an obligation. -/

namespace Sys2Proof.Tests

open Sys2Proof.Machine

set_option Elab.async false

/-! ### WellFormed refuses each ill-formed term -/

theorem test_wf_refuses_nine_mode_group :
    Instr.wf .table (.lda (.mem (.zpy 0x00#8))) = false ∧ Instr.wf .table (.cmp (.mem (.zpy 0x00#8))) = false := by decide
theorem test_wf_refuses_ldx_modes :
    Instr.wf .table (.ldx (.mem (.abx 0x0000#16))) = false ∧ Instr.wf .table (.ldx (.mem (.zpx 0x00#8))) = false := by decide
theorem test_wf_refuses_ldy_modes :
    Instr.wf .table (.ldy (.mem (.aby 0x0000#16))) = false ∧ Instr.wf .table (.ldy (.mem (.izp 0x00#8))) = false := by decide
theorem test_wf_refuses_cpx_cpy_modes :
    Instr.wf .table (.cpx (.mem (.zpx 0x00#8))) = false ∧ Instr.wf .table (.cpy (.mem (.abx 0x0000#16))) = false := by decide
theorem test_wf_refuses_bit_modes :
    Instr.wf .table (.bit (.mem (.aby 0x0000#16))) = false ∧ Instr.wf .table (.bit (.mem (.izp 0x00#8))) = false := by decide
theorem test_wf_refuses_sta_modes :
    Instr.wf .table (.sta (.zpy 0x00#8)) = false ∧ Instr.wf .table (.sta (.zpy 0xFF#8)) = false := by decide
theorem test_wf_refuses_stx_modes :
    Instr.wf .table (.stx (.zpx 0x00#8)) = false ∧ Instr.wf .table (.stx (.abx 0x0000#16)) = false := by decide
theorem test_wf_refuses_sty_modes :
    Instr.wf .table (.sty (.zpy 0x00#8)) = false ∧ Instr.wf .table (.sty (.izp 0x00#8)) = false := by decide
theorem test_wf_refuses_stz_modes :
    Instr.wf .table (.stz (.aby 0x0000#16)) = false ∧ Instr.wf .table (.stz (.izp 0x00#8)) = false := by decide
theorem test_wf_refuses_rmw_modes :
    Instr.wf .table (.inc (.mem (.aby 0x0000#16))) = false ∧ Instr.wf .table (.ror (.mem (.izy 0x00#8))) = false := by decide
theorem test_wf_refuses_tsb_trb_modes :
    Instr.wf .table (.tsb (.zpx 0x00#8)) = false ∧ Instr.wf .table (.trb (.abx 0x0000#16)) = false := by decide
theorem test_wf_refuses_nop1_opcode :
    Instr.wf .table (.nop1 0xEA#8) = false ∧ Instr.wf .table (.nop1 0x04#8) = false := by decide
theorem test_wf_refuses_nopImm_opcode :
    Instr.wf .table (.nopImm 0x02#8 0x00#8) = false ∧ Instr.wf .table (.nopImm 0xA2#8 0x00#8) = false := by decide
theorem test_wf_refuses_nopZpx_opcode :
    Instr.wf .table (.nopZpx 0x44#8 0x00#8) = false ∧ Instr.wf .table (.nopZpx 0x55#8 0x00#8) = false := by decide
theorem test_wf_refuses_nopAbs_opcode :
    Instr.wf .table (.nopAbs 0x5C#8 0x0000#16) = false ∧ Instr.wf .table (.nopAbs 0xEC#8 0x0000#16) = false := by decide
theorem test_wf_refuses_bit_instructions_when_off :
    Instr.wf .table (.rmb 0#3 0x00#8) = false ∧ Instr.wf .table (.bbs 7#3 0x00#8 0x00#8) = false := by decide
theorem test_wf_refuses_wait_and_stop_when_off :
    Instr.wf .table (.wai) = false ∧ Instr.wf .table (.stp) = false := by decide
theorem test_wf_refuses_nop1_when_on :
    Instr.wf ⟨.rockwell, .nop⟩ (.nop1 0x07#8) = false ∧ Instr.wf ⟨.nop, .wdc⟩ (.nop1 0xCB#8) = false := by decide

/-! ### Decoding (30_encoding.md, the "Encoding" lines of files 41 to 49, and section 3.12 of the vectors) -/

theorem test_decode_loads_stores_transfers :
    decodeTableWord 24 0x1234BD = some (.lda (.mem (.abx 0x1234#16))) ∧
    decodeTableWord 16 0x34B6 = some (.ldx (.mem (.zpy 0x34#8))) ∧
    decodeTableWord 16 0x34A0 = some (.ldy (.imm 0x34#8)) ∧
    decodeTableWord 16 0x3491 = some (.sta (.izy 0x34#8)) ∧
    decodeTableWord 24 0x12348E = some (.stx (.abs 0x1234#16)) ∧
    decodeTableWord 16 0x3494 = some (.sty (.zpx 0x34#8)) ∧
    decodeTableWord 24 0x12349E = some (.stz (.abx 0x1234#16)) ∧
    decodeTableWord 8 0xAA = some (.tax) ∧
    decodeTableWord 8 0xA8 = some (.tay) ∧
    decodeTableWord 8 0x8A = some (.txa) ∧
    decodeTableWord 8 0x98 = some (.tya) ∧
    decodeTableWord 8 0xBA = some (.tsx) ∧
    decodeTableWord 8 0x9A = some (.txs) := by decide +kernel

theorem test_decode_stack :
    decodeTableWord 8 0x48 = some (.pha) ∧
    decodeTableWord 8 0x08 = some (.php) ∧
    decodeTableWord 8 0xDA = some (.phx) ∧
    decodeTableWord 8 0x5A = some (.phy) ∧
    decodeTableWord 8 0x68 = some (.pla) ∧
    decodeTableWord 8 0x28 = some (.plp) ∧
    decodeTableWord 8 0xFA = some (.plx) ∧
    decodeTableWord 8 0x7A = some (.ply) := by decide +kernel

theorem test_decode_increment_decrement :
    decodeTableWord 24 0x1234FE = some (.inc (.mem (.abx 0x1234#16))) ∧
    decodeTableWord 8 0x1A = some (.inc .acc) ∧
    decodeTableWord 16 0x34D6 = some (.dec (.mem (.zpx 0x34#8))) ∧
    decodeTableWord 8 0x3A = some (.dec .acc) ∧
    decodeTableWord 8 0xE8 = some (.inx) ∧
    decodeTableWord 8 0xC8 = some (.iny) ∧
    decodeTableWord 8 0xCA = some (.dex) ∧
    decodeTableWord 8 0x88 = some (.dey) := by decide +kernel

theorem test_decode_arithmetic_compare :
    decodeTableWord 16 0x3472 = some (.adc (.mem (.izp 0x34#8))) ∧
    decodeTableWord 16 0x34E1 = some (.sbc (.mem (.izx 0x34#8))) ∧
    decodeTableWord 24 0x1234D9 = some (.cmp (.mem (.aby 0x1234#16))) ∧
    decodeTableWord 16 0x34E0 = some (.cpx (.imm 0x34#8)) ∧
    decodeTableWord 24 0x1234CC = some (.cpy (.mem (.abs 0x1234#16))) := by decide +kernel

theorem test_decode_logic_shift_bit :
    decodeTableWord 16 0x3425 = some (.and (.mem (.zp 0x34#8))) ∧
    decodeTableWord 16 0x3412 = some (.ora (.mem (.izp 0x34#8))) ∧
    decodeTableWord 24 0x12345D = some (.eor (.mem (.abx 0x1234#16))) ∧
    decodeTableWord 16 0x3489 = some (.bit (.imm 0x34#8)) ∧
    decodeTableWord 16 0x3434 = some (.bit (.mem (.zpx 0x34#8))) ∧
    decodeTableWord 8 0x0A = some (.asl .acc) ∧
    decodeTableWord 16 0x3456 = some (.lsr (.mem (.zpx 0x34#8))) ∧
    decodeTableWord 24 0x12343E = some (.rol (.mem (.abx 0x1234#16))) ∧
    decodeTableWord 24 0x12346E = some (.ror (.mem (.abs 0x1234#16))) ∧
    decodeTableWord 24 0x12340C = some (.tsb (.abs 0x1234#16)) ∧
    decodeTableWord 16 0x3414 = some (.trb (.zp 0x34#8)) := by decide +kernel

theorem test_decode_flag_operations :
    decodeTableWord 8 0x18 = some (.clc) ∧
    decodeTableWord 8 0x38 = some (.sec) ∧
    decodeTableWord 8 0xD8 = some (.cld) ∧
    decodeTableWord 8 0xF8 = some (.sed) ∧
    decodeTableWord 8 0x58 = some (.cli) ∧
    decodeTableWord 8 0x78 = some (.sei) ∧
    decodeTableWord 8 0xB8 = some (.clv) := by decide +kernel

theorem test_decode_jumps_branches :
    decodeTableWord 24 0x12344C = some (.jmpAbs 0x1234#16) ∧
    decodeTableWord 24 0x12346C = some (.jmpInd 0x1234#16) ∧
    decodeTableWord 24 0x12347C = some (.jmpIax 0x1234#16) ∧
    decodeTableWord 24 0x123420 = some (.jsr 0x1234#16) ∧
    decodeTableWord 8 0x60 = some (.rts) ∧
    decodeTableWord 16 0x3410 = some (.bpl 0x34#8) ∧
    decodeTableWord 16 0x3430 = some (.bmi 0x34#8) ∧
    decodeTableWord 16 0x3450 = some (.bvc 0x34#8) ∧
    decodeTableWord 16 0x3470 = some (.bvs 0x34#8) ∧
    decodeTableWord 16 0x3490 = some (.bcc 0x34#8) ∧
    decodeTableWord 16 0x34B0 = some (.bcs 0x34#8) ∧
    decodeTableWord 16 0x34D0 = some (.bne 0x34#8) ∧
    decodeTableWord 16 0x34F0 = some (.beq 0x34#8) ∧
    decodeTableWord 16 0x3480 = some (.bra 0x34#8) := by decide +kernel

theorem test_decode_system_and_no_operations :
    decodeTableWord 8 0x00 = some (.brk) ∧
    decodeTableWord 8 0x40 = some (.rti) ∧
    decodeTableWord 8 0xEA = some (.nop) ∧
    decodeTableWord 8 0x03 = some (.nop1 0x03#8) ∧
    decodeTableWord 8 0xCB = some (.nop1 0xCB#8) ∧
    decodeTableWord 8 0xFF = some (.nop1 0xFF#8) ∧
    decodeTableWord 16 0x3442 = some (.nopImm 0x42#8 0x34#8) ∧
    decodeTableWord 16 0x3444 = some (.nopZp 0x34#8) ∧
    decodeTableWord 16 0x3454 = some (.nopZpx 0x54#8 0x34#8) ∧
    decodeTableWord 24 0x1234DC = some (.nopAbs 0xDC#8 0x1234#16) ∧
    decodeTableWord 24 0x12345C = some (.nopAbs8 0x1234#16) ∧
    decodeTableWord 8 0x02 = some (.halt) := by decide +kernel

theorem test_decode_parameter_gated :
    decode ⟨.rockwell, .wdc⟩ [0x47#8, 0x34#8] = .ok (.rmb 4#3 0x34#8, []) ∧
    decode ⟨.rockwell, .wdc⟩ [0xF7#8, 0x34#8] = .ok (.smb 7#3 0x34#8, []) ∧
    decode ⟨.rockwell, .wdc⟩ [0x2F#8, 0x34#8, 0x12#8] = .ok (.bbr 2#3 0x34#8 0x12#8, []) ∧
    decode ⟨.rockwell, .wdc⟩ [0x9F#8, 0x34#8, 0x12#8] = .ok (.bbs 1#3 0x34#8 0x12#8, []) ∧
    decode ⟨.rockwell, .wdc⟩ [0xCB#8] = .ok (.wai, []) ∧
    decode ⟨.rockwell, .wdc⟩ [0xDB#8] = .ok (.stp, []) := ⟨rfl, rfl, rfl, rfl, rfl, rfl⟩

/-- The only reason not to decode is a lack of bytes. -/
theorem test_decode_refuses_truncated :
    decode .table [] = .error .noBytes ∧ decode .table [0xAD#8, 0x34#8] = .error (.truncated 0xAD#8) ∧
    decode .table [0xA9#8] = .error (.truncated 0xA9#8) := ⟨rfl, rfl, rfl⟩

/-! ### Small states -/

structure Regs where
  a : Byte
  x : Byte
  y : Byte
  sp : Byte
  p : Byte
  deriving DecidableEq, Repr

/-- Every parameter-gated instruction switched on. -/
def wide : Variant := ⟨.rockwell, .wdc⟩

/-- The reference parameters of the vectors, with the given code in ROM0 and placeholder reads of `$5A`. -/
def params (v : Variant) (rom0 : List Host.Cell) : Params :=
  { Params.standard with rom0 := rom0, openBus := .fixed 0x5A#8, variant := v }

/-- A running machine with the given PC, cells of ROM0 and SysRAM, and registers. -/
def start (v : Variant) (pc : Addr) (rom0 : List Host.Cell) (ram : Memory) (r : Regs) : State :=
  { State.afterReset (params v rom0) with
    pc := pc, ram := ram, a := r.a, x := r.x, y := r.y, sp := r.sp, p := r.p }

/-- The registers, PC, RUN and the bus events after the two of the reset. -/
def see (t : State) : Regs × Addr × Run × List BusEvent :=
  (⟨t.a, t.x, t.y, t.sp, t.p⟩, t.pc, t.run, t.busLog.drop 2)

def seen (o : Out) : Option (Regs × Addr × Run × List BusEvent) :=
  match o with
  | .next t => some (see t)
  | .fault _ => none
  | .refused _ => none

/-- The state that an outcome leads to; the given one where it leads to none. -/
def thenState (o : Out) (s : State) : State :=
  match o with
  | .next t => t
  | .fault _ => s
  | .refused _ => s

/-! ### One step per instruction (95_test_vectors.md, sections 3.1 to 3.8 and 3.10) -/

/-! Section 3.1 of the vectors: loads, stores, transfers. -/

theorem test_lda_izy_cross :
    seen (step (start .table 0xE000#16 [(0, 0xB1#8), (1, 0x20#8)] [(32, 0xF8#8), (33, 0x03#8), (1032, 0x7A#8)] ⟨0x00#8, 0x00#8, 0x10#8, 0xFD#8, 0x20#8⟩)) =
      some (⟨0x7A#8, 0x00#8, 0x10#8, 0xFD#8, 0x20#8⟩, 0xE002#16, .running, [
        .read 0xE000#16 0xB1#8, .read 0xE001#16 0x20#8, .read 0x0020#16 0xF8#8, .read 0x0021#16 0x03#8,
        .read 0x0308#16 0x00#8, .read 0x0408#16 0x7A#8]) := by decide +kernel

theorem test_lda_izx_wraps :
    seen (step (start .table 0xE000#16 [(0, 0xA1#8), (1, 0xFF#8)] [(0, 0x03#8), (768, 0x78#8)] ⟨0x00#8, 0x00#8, 0x00#8, 0xFD#8, 0x20#8⟩)) =
      some (⟨0x78#8, 0x00#8, 0x00#8, 0xFD#8, 0x20#8⟩, 0xE002#16, .running, [
        .read 0xE000#16 0xA1#8, .read 0xE001#16 0xFF#8, .read 0x00FF#16 0x00#8, .read 0x00FF#16 0x00#8,
        .read 0x0000#16 0x03#8, .read 0x0300#16 0x78#8]) := by decide +kernel

theorem test_ldx_zpy :
    seen (step (start .table 0xE000#16 [(0, 0xB6#8), (1, 0x10#8)] [(18, 0x33#8)] ⟨0x00#8, 0x00#8, 0x02#8, 0xFD#8, 0x20#8⟩)) =
      some (⟨0x00#8, 0x33#8, 0x02#8, 0xFD#8, 0x20#8⟩, 0xE002#16, .running, [
        .read 0xE000#16 0xB6#8, .read 0xE001#16 0x10#8, .read 0x0010#16 0x00#8, .read 0x0012#16 0x33#8]) := by decide +kernel

theorem test_ldy_abx_cross :
    seen (step (start .table 0xE000#16 [(0, 0xBC#8), (1, 0x80#8), (2, 0x02#8)] [(768, 0x81#8)] ⟨0x00#8, 0x80#8, 0x00#8, 0xFD#8, 0x20#8⟩)) =
      some (⟨0x00#8, 0x80#8, 0x81#8, 0xFD#8, 0xA0#8⟩, 0xE003#16, .running, [
        .read 0xE000#16 0xBC#8, .read 0xE001#16 0x80#8, .read 0xE002#16 0x02#8, .read 0x0200#16 0x00#8,
        .read 0x0300#16 0x81#8]) := by decide +kernel

theorem test_sta_izy :
    seen (step (start .table 0xE000#16 [(0, 0x91#8), (1, 0x20#8)] [(33, 0x03#8)] ⟨0xAB#8, 0x00#8, 0x04#8, 0xFD#8, 0x20#8⟩)) =
      some (⟨0xAB#8, 0x00#8, 0x04#8, 0xFD#8, 0x20#8⟩, 0xE002#16, .running, [
        .read 0xE000#16 0x91#8, .read 0xE001#16 0x20#8, .read 0x0020#16 0x00#8, .read 0x0021#16 0x03#8,
        .read 0x0304#16 0x00#8, .write 0x0304#16 0xAB#8]) := by decide +kernel

theorem test_sta_rom_discarded :
    seen (step (start .table 0xE000#16 [(0, 0x8D#8), (2, 0xE0#8)] [] ⟨0xAB#8, 0x00#8, 0x00#8, 0xFD#8, 0x20#8⟩)) =
      some (⟨0xAB#8, 0x00#8, 0x00#8, 0xFD#8, 0x20#8⟩, 0xE003#16, .running, [
        .read 0xE000#16 0x8D#8, .read 0xE001#16 0x00#8, .read 0xE002#16 0xE0#8, .write 0xE000#16 0xAB#8]) := by decide +kernel

theorem test_stx_zpy :
    seen (step (start .table 0xE000#16 [(0, 0x96#8), (1, 0x10#8)] [] ⟨0x00#8, 0x5A#8, 0x01#8, 0xFD#8, 0x20#8⟩)) =
      some (⟨0x00#8, 0x5A#8, 0x01#8, 0xFD#8, 0x20#8⟩, 0xE002#16, .running, [
        .read 0xE000#16 0x96#8, .read 0xE001#16 0x10#8, .read 0x0010#16 0x00#8, .write 0x0011#16 0x5A#8]) := by decide +kernel

theorem test_sty_abs :
    seen (step (start .table 0xE000#16 [(0, 0x8C#8), (2, 0x02#8)] [] ⟨0x00#8, 0x00#8, 0x5B#8, 0xFD#8, 0x20#8⟩)) =
      some (⟨0x00#8, 0x00#8, 0x5B#8, 0xFD#8, 0x20#8⟩, 0xE003#16, .running, [
        .read 0xE000#16 0x8C#8, .read 0xE001#16 0x00#8, .read 0xE002#16 0x02#8, .write 0x0200#16 0x5B#8]) := by decide +kernel

theorem test_stz_abx :
    seen (step (start .table 0xE000#16 [(0, 0x9E#8), (2, 0x02#8)] [(517, 0xFF#8)] ⟨0x00#8, 0x05#8, 0x00#8, 0xFD#8, 0x20#8⟩)) =
      some (⟨0x00#8, 0x05#8, 0x00#8, 0xFD#8, 0x20#8⟩, 0xE003#16, .running, [
        .read 0xE000#16 0x9E#8, .read 0xE001#16 0x00#8, .read 0xE002#16 0x02#8, .read 0x0205#16 0xFF#8,
        .write 0x0205#16 0x00#8]) := by decide +kernel

theorem test_tax :
    seen (step (start .table 0xE000#16 [(0, 0xAA#8)] [] ⟨0x80#8, 0x00#8, 0x00#8, 0xFD#8, 0x20#8⟩)) =
      some (⟨0x80#8, 0x80#8, 0x00#8, 0xFD#8, 0xA0#8⟩, 0xE001#16, .running, [
        .read 0xE000#16 0xAA#8, .read 0xE001#16 0x00#8]) := by decide +kernel

theorem test_tay_zero :
    seen (step (start .table 0xE000#16 [(0, 0xA8#8)] [] ⟨0x00#8, 0x00#8, 0x05#8, 0xFD#8, 0x20#8⟩)) =
      some (⟨0x00#8, 0x00#8, 0x00#8, 0xFD#8, 0x22#8⟩, 0xE001#16, .running, [
        .read 0xE000#16 0xA8#8, .read 0xE001#16 0x00#8]) := by decide +kernel

theorem test_txa :
    seen (step (start .table 0xE000#16 [(0, 0x8A#8)] [] ⟨0xFF#8, 0x01#8, 0x00#8, 0xFD#8, 0x20#8⟩)) =
      some (⟨0x01#8, 0x01#8, 0x00#8, 0xFD#8, 0x20#8⟩, 0xE001#16, .running, [
        .read 0xE000#16 0x8A#8, .read 0xE001#16 0x00#8]) := by decide +kernel

theorem test_tya :
    seen (step (start .table 0xE000#16 [(0, 0x98#8)] [] ⟨0x00#8, 0x00#8, 0xFF#8, 0xFD#8, 0x20#8⟩)) =
      some (⟨0xFF#8, 0x00#8, 0xFF#8, 0xFD#8, 0xA0#8⟩, 0xE001#16, .running, [
        .read 0xE000#16 0x98#8, .read 0xE001#16 0x00#8]) := by decide +kernel

theorem test_tsx :
    seen (step (start .table 0xE000#16 [(0, 0xBA#8)] [] ⟨0x00#8, 0x00#8, 0x00#8, 0xFD#8, 0x20#8⟩)) =
      some (⟨0x00#8, 0xFD#8, 0x00#8, 0xFD#8, 0xA0#8⟩, 0xE001#16, .running, [
        .read 0xE000#16 0xBA#8, .read 0xE001#16 0x00#8]) := by decide +kernel

theorem test_txs_sets_no_flags :
    seen (step (start .table 0xE000#16 [(0, 0x9A#8)] [] ⟨0x00#8, 0x00#8, 0x00#8, 0xFD#8, 0x20#8⟩)) =
      some (⟨0x00#8, 0x00#8, 0x00#8, 0x00#8, 0x20#8⟩, 0xE001#16, .running, [
        .read 0xE000#16 0x9A#8, .read 0xE001#16 0x00#8]) := by decide +kernel

/-! Section 3.2 of the vectors: stack. -/

theorem test_pha_wraps :
    seen (step (start .table 0xE000#16 [(0, 0x48#8)] [] ⟨0xAA#8, 0x00#8, 0x00#8, 0x00#8, 0x20#8⟩)) =
      some (⟨0xAA#8, 0x00#8, 0x00#8, 0xFF#8, 0x20#8⟩, 0xE001#16, .running, [
        .read 0xE000#16 0x48#8, .read 0xE001#16 0x00#8, .write 0x0100#16 0xAA#8]) := by decide +kernel

theorem test_php :
    seen (step (start .table 0xE000#16 [(0, 0x08#8)] [] ⟨0x00#8, 0x00#8, 0x00#8, 0xFF#8, 0xA1#8⟩)) =
      some (⟨0x00#8, 0x00#8, 0x00#8, 0xFE#8, 0xA1#8⟩, 0xE001#16, .running, [
        .read 0xE000#16 0x08#8, .read 0xE001#16 0x00#8, .write 0x01FF#16 0xB1#8]) := by decide +kernel

theorem test_phx :
    seen (step (start .table 0xE000#16 [(0, 0xDA#8)] [] ⟨0x00#8, 0x11#8, 0x00#8, 0xFF#8, 0x20#8⟩)) =
      some (⟨0x00#8, 0x11#8, 0x00#8, 0xFE#8, 0x20#8⟩, 0xE001#16, .running, [
        .read 0xE000#16 0xDA#8, .read 0xE001#16 0x00#8, .write 0x01FF#16 0x11#8]) := by decide +kernel

theorem test_phy :
    seen (step (start .table 0xE000#16 [(0, 0x5A#8)] [] ⟨0x00#8, 0x00#8, 0x22#8, 0xFF#8, 0x20#8⟩)) =
      some (⟨0x00#8, 0x00#8, 0x22#8, 0xFE#8, 0x20#8⟩, 0xE001#16, .running, [
        .read 0xE000#16 0x5A#8, .read 0xE001#16 0x00#8, .write 0x01FF#16 0x22#8]) := by decide +kernel

theorem test_pla_wraps :
    seen (step (start .table 0xE000#16 [(0, 0x68#8)] [(256, 0x7E#8)] ⟨0x00#8, 0x00#8, 0x00#8, 0xFF#8, 0x20#8⟩)) =
      some (⟨0x7E#8, 0x00#8, 0x00#8, 0x00#8, 0x20#8⟩, 0xE001#16, .running, [
        .read 0xE000#16 0x68#8, .read 0xE001#16 0x00#8, .read 0x01FF#16 0x00#8, .read 0x0100#16 0x7E#8]) := by decide +kernel

theorem test_plp :
    seen (step (start .table 0xE000#16 [(0, 0x28#8)] [(511, 0xCF#8)] ⟨0x00#8, 0x00#8, 0x00#8, 0xFE#8, 0x20#8⟩)) =
      some (⟨0x00#8, 0x00#8, 0x00#8, 0xFF#8, 0xEF#8⟩, 0xE001#16, .running, [
        .read 0xE000#16 0x28#8, .read 0xE001#16 0x00#8, .read 0x01FE#16 0x00#8, .read 0x01FF#16 0xCF#8]) := by decide +kernel

theorem test_plx :
    seen (step (start .table 0xE000#16 [(0, 0xFA#8)] [(511, 0x80#8)] ⟨0x00#8, 0x00#8, 0x00#8, 0xFE#8, 0x20#8⟩)) =
      some (⟨0x00#8, 0x80#8, 0x00#8, 0xFF#8, 0xA0#8⟩, 0xE001#16, .running, [
        .read 0xE000#16 0xFA#8, .read 0xE001#16 0x00#8, .read 0x01FE#16 0x00#8, .read 0x01FF#16 0x80#8]) := by decide +kernel

theorem test_ply :
    seen (step (start .table 0xE000#16 [(0, 0x7A#8)] [(511, 0x01#8)] ⟨0x00#8, 0x00#8, 0x00#8, 0xFE#8, 0x20#8⟩)) =
      some (⟨0x00#8, 0x00#8, 0x01#8, 0xFF#8, 0x20#8⟩, 0xE001#16, .running, [
        .read 0xE000#16 0x7A#8, .read 0xE001#16 0x00#8, .read 0x01FE#16 0x00#8, .read 0x01FF#16 0x01#8]) := by decide +kernel

/-! Section 3.3 of the vectors: increment and decrement. -/

theorem test_inc_abx :
    seen (step (start .table 0xE000#16 [(0, 0xFE#8), (2, 0x02#8)] [(513, 0x41#8)] ⟨0x00#8, 0x01#8, 0x00#8, 0xFD#8, 0x20#8⟩)) =
      some (⟨0x00#8, 0x01#8, 0x00#8, 0xFD#8, 0x20#8⟩, 0xE003#16, .running, [
        .read 0xE000#16 0xFE#8, .read 0xE001#16 0x00#8, .read 0xE002#16 0x02#8, .read 0x0201#16 0x41#8,
        .read 0x0201#16 0x41#8, .read 0x0201#16 0x41#8, .write 0x0201#16 0x42#8]) := by decide +kernel

theorem test_inc_acc :
    seen (step (start .table 0xE000#16 [(0, 0x1A#8)] [] ⟨0xFF#8, 0x00#8, 0x00#8, 0xFD#8, 0x20#8⟩)) =
      some (⟨0x00#8, 0x00#8, 0x00#8, 0xFD#8, 0x22#8⟩, 0xE001#16, .running, [
        .read 0xE000#16 0x1A#8, .read 0xE001#16 0x00#8]) := by decide +kernel

theorem test_dec_zp_wraps :
    seen (step (start .table 0xE000#16 [(0, 0xC6#8), (1, 0x10#8)] [] ⟨0x00#8, 0x00#8, 0x00#8, 0xFD#8, 0x20#8⟩)) =
      some (⟨0x00#8, 0x00#8, 0x00#8, 0xFD#8, 0xA0#8⟩, 0xE002#16, .running, [
        .read 0xE000#16 0xC6#8, .read 0xE001#16 0x10#8, .read 0x0010#16 0x00#8, .read 0x0010#16 0x00#8,
        .write 0x0010#16 0xFF#8]) := by decide +kernel

theorem test_dec_acc :
    seen (step (start .table 0xE000#16 [(0, 0x3A#8)] [] ⟨0x00#8, 0x00#8, 0x00#8, 0xFD#8, 0x20#8⟩)) =
      some (⟨0xFF#8, 0x00#8, 0x00#8, 0xFD#8, 0xA0#8⟩, 0xE001#16, .running, [
        .read 0xE000#16 0x3A#8, .read 0xE001#16 0x00#8]) := by decide +kernel

theorem test_inx_wraps :
    seen (step (start .table 0xE000#16 [(0, 0xE8#8)] [] ⟨0x00#8, 0xFF#8, 0x00#8, 0xFD#8, 0x20#8⟩)) =
      some (⟨0x00#8, 0x00#8, 0x00#8, 0xFD#8, 0x22#8⟩, 0xE001#16, .running, [
        .read 0xE000#16 0xE8#8, .read 0xE001#16 0x00#8]) := by decide +kernel

theorem test_iny :
    seen (step (start .table 0xE000#16 [(0, 0xC8#8)] [] ⟨0x00#8, 0x00#8, 0x7F#8, 0xFD#8, 0x20#8⟩)) =
      some (⟨0x00#8, 0x00#8, 0x80#8, 0xFD#8, 0xA0#8⟩, 0xE001#16, .running, [
        .read 0xE000#16 0xC8#8, .read 0xE001#16 0x00#8]) := by decide +kernel

theorem test_dex_wraps :
    seen (step (start .table 0xE000#16 [(0, 0xCA#8)] [] ⟨0x00#8, 0x00#8, 0x00#8, 0xFD#8, 0x20#8⟩)) =
      some (⟨0x00#8, 0xFF#8, 0x00#8, 0xFD#8, 0xA0#8⟩, 0xE001#16, .running, [
        .read 0xE000#16 0xCA#8, .read 0xE001#16 0x00#8]) := by decide +kernel

theorem test_dey_to_zero :
    seen (step (start .table 0xE000#16 [(0, 0x88#8)] [] ⟨0x00#8, 0x00#8, 0x01#8, 0xFD#8, 0x20#8⟩)) =
      some (⟨0x00#8, 0x00#8, 0x00#8, 0xFD#8, 0x22#8⟩, 0xE001#16, .running, [
        .read 0xE000#16 0x88#8, .read 0xE001#16 0x00#8]) := by decide +kernel

/-! Section 3.4 of the vectors: add, subtract, compare. -/

theorem test_adc_overflow :
    seen (step (start .table 0xE000#16 [(0, 0x69#8), (1, 0x7F#8)] [] ⟨0x7F#8, 0x00#8, 0x00#8, 0xFD#8, 0x21#8⟩)) =
      some (⟨0xFF#8, 0x00#8, 0x00#8, 0xFD#8, 0xE0#8⟩, 0xE002#16, .running, [
        .read 0xE000#16 0x69#8, .read 0xE001#16 0x7F#8]) := by decide +kernel

theorem test_adc_ignores_decimal :
    seen (step (start .table 0xE000#16 [(0, 0x69#8), (1, 0x01#8)] [] ⟨0x09#8, 0x00#8, 0x00#8, 0xFD#8, 0x28#8⟩)) =
      some (⟨0x0A#8, 0x00#8, 0x00#8, 0xFD#8, 0x28#8⟩, 0xE002#16, .running, [
        .read 0xE000#16 0x69#8, .read 0xE001#16 0x01#8]) := by decide +kernel

theorem test_sbc_overflow :
    seen (step (start .table 0xE000#16 [(0, 0xE9#8), (1, 0xFF#8)] [] ⟨0x7F#8, 0x00#8, 0x00#8, 0xFD#8, 0x21#8⟩)) =
      some (⟨0x80#8, 0x00#8, 0x00#8, 0xFD#8, 0xE0#8⟩, 0xE002#16, .running, [
        .read 0xE000#16 0xE9#8, .read 0xE001#16 0xFF#8]) := by decide +kernel

theorem test_sbc_izp :
    seen (step (start .table 0xE000#16 [(0, 0xF2#8), (1, 0x20#8)] [(33, 0x03#8), (768, 0x10#8)] ⟨0x30#8, 0x00#8, 0x00#8, 0xFD#8, 0x21#8⟩)) =
      some (⟨0x20#8, 0x00#8, 0x00#8, 0xFD#8, 0x21#8⟩, 0xE002#16, .running, [
        .read 0xE000#16 0xF2#8, .read 0xE001#16 0x20#8, .read 0x0020#16 0x00#8, .read 0x0021#16 0x03#8,
        .read 0x0300#16 0x10#8]) := by decide +kernel

theorem test_cmp_keeps_v :
    seen (step (start .table 0xE000#16 [(0, 0xC9#8), (1, 0x7F#8)] [] ⟨0x80#8, 0x00#8, 0x00#8, 0xFD#8, 0x60#8⟩)) =
      some (⟨0x80#8, 0x00#8, 0x00#8, 0xFD#8, 0x61#8⟩, 0xE002#16, .running, [
        .read 0xE000#16 0xC9#8, .read 0xE001#16 0x7F#8]) := by decide +kernel

theorem test_cpx_less :
    seen (step (start .table 0xE000#16 [(0, 0xE4#8), (1, 0x10#8)] [(16, 0x02#8)] ⟨0x00#8, 0x01#8, 0x00#8, 0xFD#8, 0x20#8⟩)) =
      some (⟨0x00#8, 0x01#8, 0x00#8, 0xFD#8, 0xA0#8⟩, 0xE002#16, .running, [
        .read 0xE000#16 0xE4#8, .read 0xE001#16 0x10#8, .read 0x0010#16 0x02#8]) := by decide +kernel

theorem test_cpy_abs :
    seen (step (start .table 0xE000#16 [(0, 0xCC#8), (2, 0x02#8)] [(512, 0x10#8)] ⟨0x00#8, 0x00#8, 0x90#8, 0xFD#8, 0x20#8⟩)) =
      some (⟨0x00#8, 0x00#8, 0x90#8, 0xFD#8, 0xA1#8⟩, 0xE003#16, .running, [
        .read 0xE000#16 0xCC#8, .read 0xE001#16 0x00#8, .read 0xE002#16 0x02#8, .read 0x0200#16 0x10#8]) := by decide +kernel

/-! Section 3.5 of the vectors: logic, bit test, shifts, test and set. -/

theorem test_and_to_zero :
    seen (step (start .table 0xE000#16 [(0, 0x29#8), (1, 0x0F#8)] [] ⟨0xF0#8, 0x00#8, 0x00#8, 0xFD#8, 0x20#8⟩)) =
      some (⟨0x00#8, 0x00#8, 0x00#8, 0xFD#8, 0x22#8⟩, 0xE002#16, .running, [
        .read 0xE000#16 0x29#8, .read 0xE001#16 0x0F#8]) := by decide +kernel

theorem test_ora :
    seen (step (start .table 0xE000#16 [(0, 0x09#8), (1, 0x80#8)] [] ⟨0x0F#8, 0x00#8, 0x00#8, 0xFD#8, 0x20#8⟩)) =
      some (⟨0x8F#8, 0x00#8, 0x00#8, 0xFD#8, 0xA0#8⟩, 0xE002#16, .running, [
        .read 0xE000#16 0x09#8, .read 0xE001#16 0x80#8]) := by decide +kernel

theorem test_eor_self :
    seen (step (start .table 0xE000#16 [(0, 0x45#8), (1, 0x10#8)] [(16, 0xAA#8)] ⟨0xAA#8, 0x00#8, 0x00#8, 0xFD#8, 0x20#8⟩)) =
      some (⟨0x00#8, 0x00#8, 0x00#8, 0xFD#8, 0x22#8⟩, 0xE002#16, .running, [
        .read 0xE000#16 0x45#8, .read 0xE001#16 0x10#8, .read 0x0010#16 0xAA#8]) := by decide +kernel

theorem test_bit_abx_cross :
    seen (step (start .table 0xE000#16 [(0, 0x3C#8), (1, 0xFF#8), (2, 0x02#8)] [(768, 0x40#8)] ⟨0xFF#8, 0x01#8, 0x00#8, 0xFD#8, 0x20#8⟩)) =
      some (⟨0xFF#8, 0x01#8, 0x00#8, 0xFD#8, 0x60#8⟩, 0xE003#16, .running, [
        .read 0xE000#16 0x3C#8, .read 0xE001#16 0xFF#8, .read 0xE002#16 0x02#8, .read 0x0200#16 0x00#8,
        .read 0x0300#16 0x40#8]) := by decide +kernel

theorem test_bit_imm_keeps_n_v :
    seen (step (start .table 0xE000#16 [(0, 0x89#8)] [] ⟨0xFF#8, 0x00#8, 0x00#8, 0xFD#8, 0xE0#8⟩)) =
      some (⟨0xFF#8, 0x00#8, 0x00#8, 0xFD#8, 0xE2#8⟩, 0xE002#16, .running, [
        .read 0xE000#16 0x89#8, .read 0xE001#16 0x00#8]) := by decide +kernel

theorem test_asl_abx :
    seen (step (start .table 0xE000#16 [(0, 0x1E#8), (2, 0x02#8)] [(513, 0x01#8)] ⟨0x00#8, 0x01#8, 0x00#8, 0xFD#8, 0x20#8⟩)) =
      some (⟨0x00#8, 0x01#8, 0x00#8, 0xFD#8, 0x20#8⟩, 0xE003#16, .running, [
        .read 0xE000#16 0x1E#8, .read 0xE001#16 0x00#8, .read 0xE002#16 0x02#8, .read 0x0201#16 0x01#8,
        .read 0x0201#16 0x01#8, .read 0x0201#16 0x01#8, .write 0x0201#16 0x02#8]) := by decide +kernel

theorem test_lsr_abs :
    seen (step (start .table 0xE000#16 [(0, 0x4E#8), (2, 0x02#8)] [(512, 0xFF#8)] ⟨0x00#8, 0x00#8, 0x00#8, 0xFD#8, 0x20#8⟩)) =
      some (⟨0x00#8, 0x00#8, 0x00#8, 0xFD#8, 0x21#8⟩, 0xE003#16, .running, [
        .read 0xE000#16 0x4E#8, .read 0xE001#16 0x00#8, .read 0xE002#16 0x02#8, .read 0x0200#16 0xFF#8,
        .read 0x0200#16 0xFF#8, .write 0x0200#16 0x7F#8]) := by decide +kernel

theorem test_rol_acc :
    seen (step (start .table 0xE000#16 [(0, 0x2A#8)] [] ⟨0x40#8, 0x00#8, 0x00#8, 0xFD#8, 0x21#8⟩)) =
      some (⟨0x81#8, 0x00#8, 0x00#8, 0xFD#8, 0xA0#8⟩, 0xE001#16, .running, [
        .read 0xE000#16 0x2A#8, .read 0xE001#16 0x00#8]) := by decide +kernel

theorem test_ror_abx_cross :
    seen (step (start .table 0xE000#16 [(0, 0x7E#8), (1, 0xFF#8), (2, 0x02#8)] [] ⟨0x00#8, 0x01#8, 0x00#8, 0xFD#8, 0x21#8⟩)) =
      some (⟨0x00#8, 0x01#8, 0x00#8, 0xFD#8, 0xA0#8⟩, 0xE003#16, .running, [
        .read 0xE000#16 0x7E#8, .read 0xE001#16 0xFF#8, .read 0xE002#16 0x02#8, .read 0x0200#16 0x00#8,
        .read 0x0300#16 0x00#8, .read 0x0300#16 0x00#8, .write 0x0300#16 0x80#8]) := by decide +kernel

theorem test_tsb_abs :
    seen (step (start .table 0xE000#16 [(0, 0x0C#8), (2, 0x02#8)] [(512, 0x10#8)] ⟨0x18#8, 0x00#8, 0x00#8, 0xFD#8, 0x20#8⟩)) =
      some (⟨0x18#8, 0x00#8, 0x00#8, 0xFD#8, 0x20#8⟩, 0xE003#16, .running, [
        .read 0xE000#16 0x0C#8, .read 0xE001#16 0x00#8, .read 0xE002#16 0x02#8, .read 0x0200#16 0x10#8,
        .read 0x0200#16 0x10#8, .write 0x0200#16 0x18#8]) := by decide +kernel

theorem test_trb_zp :
    seen (step (start .table 0xE000#16 [(0, 0x14#8), (1, 0x10#8)] [(16, 0xFF#8)] ⟨0x0F#8, 0x00#8, 0x00#8, 0xFD#8, 0x20#8⟩)) =
      some (⟨0x0F#8, 0x00#8, 0x00#8, 0xFD#8, 0x20#8⟩, 0xE002#16, .running, [
        .read 0xE000#16 0x14#8, .read 0xE001#16 0x10#8, .read 0x0010#16 0xFF#8, .read 0x0010#16 0xFF#8,
        .write 0x0010#16 0xF0#8]) := by decide +kernel

/-! Section 3.6 of the vectors: flag operations. -/

theorem test_clc :
    seen (step (start .table 0xE000#16 [(0, 0x18#8)] [] ⟨0x00#8, 0x00#8, 0x00#8, 0xFD#8, 0xFF#8⟩)) =
      some (⟨0x00#8, 0x00#8, 0x00#8, 0xFD#8, 0xFE#8⟩, 0xE001#16, .running, [
        .read 0xE000#16 0x18#8, .read 0xE001#16 0x00#8]) := by decide +kernel

theorem test_sec :
    seen (step (start .table 0xE000#16 [(0, 0x38#8)] [] ⟨0x00#8, 0x00#8, 0x00#8, 0xFD#8, 0x20#8⟩)) =
      some (⟨0x00#8, 0x00#8, 0x00#8, 0xFD#8, 0x21#8⟩, 0xE001#16, .running, [
        .read 0xE000#16 0x38#8, .read 0xE001#16 0x00#8]) := by decide +kernel

theorem test_cld :
    seen (step (start .table 0xE000#16 [(0, 0xD8#8)] [] ⟨0x00#8, 0x00#8, 0x00#8, 0xFD#8, 0xFF#8⟩)) =
      some (⟨0x00#8, 0x00#8, 0x00#8, 0xFD#8, 0xF7#8⟩, 0xE001#16, .running, [
        .read 0xE000#16 0xD8#8, .read 0xE001#16 0x00#8]) := by decide +kernel

theorem test_sed :
    seen (step (start .table 0xE000#16 [(0, 0xF8#8)] [] ⟨0x00#8, 0x00#8, 0x00#8, 0xFD#8, 0x20#8⟩)) =
      some (⟨0x00#8, 0x00#8, 0x00#8, 0xFD#8, 0x28#8⟩, 0xE001#16, .running, [
        .read 0xE000#16 0xF8#8, .read 0xE001#16 0x00#8]) := by decide +kernel

theorem test_cli :
    seen (step (start .table 0xE000#16 [(0, 0x58#8)] [] ⟨0x00#8, 0x00#8, 0x00#8, 0xFD#8, 0xFF#8⟩)) =
      some (⟨0x00#8, 0x00#8, 0x00#8, 0xFD#8, 0xFB#8⟩, 0xE001#16, .running, [
        .read 0xE000#16 0x58#8, .read 0xE001#16 0x00#8]) := by decide +kernel

theorem test_sei :
    seen (step (start .table 0xE000#16 [(0, 0x78#8)] [] ⟨0x00#8, 0x00#8, 0x00#8, 0xFD#8, 0x20#8⟩)) =
      some (⟨0x00#8, 0x00#8, 0x00#8, 0xFD#8, 0x24#8⟩, 0xE001#16, .running, [
        .read 0xE000#16 0x78#8, .read 0xE001#16 0x00#8]) := by decide +kernel

theorem test_clv :
    seen (step (start .table 0xE000#16 [(0, 0xB8#8)] [] ⟨0x00#8, 0x00#8, 0x00#8, 0xFD#8, 0xFF#8⟩)) =
      some (⟨0x00#8, 0x00#8, 0x00#8, 0xFD#8, 0xBF#8⟩, 0xE001#16, .running, [
        .read 0xE000#16 0xB8#8, .read 0xE001#16 0x00#8]) := by decide +kernel

/-! Section 3.7 of the vectors: jumps and branches. -/

theorem test_jmp_abs :
    seen (step (start .table 0xE000#16 [(0, 0x4C#8), (1, 0x05#8), (2, 0xE0#8)] [] ⟨0x00#8, 0x00#8, 0x00#8, 0xFD#8, 0x20#8⟩)) =
      some (⟨0x00#8, 0x00#8, 0x00#8, 0xFD#8, 0x20#8⟩, 0xE005#16, .running, [
        .read 0xE000#16 0x4C#8, .read 0xE001#16 0x05#8, .read 0xE002#16 0xE0#8]) := by decide +kernel

theorem test_jmp_ind_page_end :
    seen (step (start .table 0xE000#16 [(0, 0x6C#8), (1, 0xFF#8), (2, 0x02#8)] [(512, 0x99#8), (767, 0x34#8), (768, 0x12#8)] ⟨0x00#8, 0x00#8, 0x00#8, 0xFD#8, 0x20#8⟩)) =
      some (⟨0x00#8, 0x00#8, 0x00#8, 0xFD#8, 0x20#8⟩, 0x1234#16, .running, [
        .read 0xE000#16 0x6C#8, .read 0xE001#16 0xFF#8, .read 0xE002#16 0x02#8, .read 0xE002#16 0x02#8,
        .read 0x02FF#16 0x34#8, .read 0x0300#16 0x12#8]) := by decide +kernel

theorem test_jmp_iax_wraps :
    seen (step (start .table 0xE000#16 [(0, 0x7C#8), (1, 0xFF#8), (2, 0xFF#8)] [(2, 0x30#8)] ⟨0x00#8, 0x02#8, 0x00#8, 0xFD#8, 0x20#8⟩)) =
      some (⟨0x00#8, 0x02#8, 0x00#8, 0xFD#8, 0x20#8⟩, 0x3000#16, .running, [
        .read 0xE000#16 0x7C#8, .read 0xE001#16 0xFF#8, .read 0xE002#16 0xFF#8, .read 0xE002#16 0xFF#8,
        .read 0x0001#16 0x00#8, .read 0x0002#16 0x30#8]) := by decide +kernel

theorem test_jsr_stack_wraps :
    seen (step (start .table 0xE000#16 [(0, 0x20#8), (1, 0x06#8), (2, 0xE0#8)] [] ⟨0x00#8, 0x00#8, 0x00#8, 0x00#8, 0x20#8⟩)) =
      some (⟨0x00#8, 0x00#8, 0x00#8, 0xFE#8, 0x20#8⟩, 0xE006#16, .running, [
        .read 0xE000#16 0x20#8, .read 0xE001#16 0x06#8, .read 0xE002#16 0xE0#8, .read 0x0100#16 0x00#8,
        .write 0x0100#16 0xE0#8, .write 0x01FF#16 0x02#8]) := by decide +kernel

theorem test_rts_wraps :
    seen (step (start .table 0xE000#16 [(0, 0x60#8)] [(510, 0xFF#8), (511, 0xFF#8)] ⟨0x00#8, 0x00#8, 0x00#8, 0xFD#8, 0x20#8⟩)) =
      some (⟨0x00#8, 0x00#8, 0x00#8, 0xFF#8, 0x20#8⟩, 0x0000#16, .running, [
        .read 0xE000#16 0x60#8, .read 0xE001#16 0x00#8, .read 0x01FD#16 0x00#8, .read 0x01FE#16 0xFF#8,
        .read 0x01FF#16 0xFF#8, .read 0xFFFF#16 0x00#8]) := by decide +kernel

theorem test_bne_other_page :
    seen (step (start .table 0xE000#16 [(0, 0xD0#8), (1, 0xFC#8)] [] ⟨0x00#8, 0x00#8, 0x00#8, 0xFD#8, 0x20#8⟩)) =
      some (⟨0x00#8, 0x00#8, 0x00#8, 0xFD#8, 0x20#8⟩, 0xDFFE#16, .running, [
        .read 0xE000#16 0xD0#8, .read 0xE001#16 0xFC#8, .read 0xE002#16 0x00#8, .read 0xE0FE#16 0x00#8]) := by decide +kernel

theorem test_beq_not_taken :
    seen (step (start .table 0xE000#16 [(0, 0xF0#8), (1, 0x7F#8)] [] ⟨0x00#8, 0x00#8, 0x00#8, 0xFD#8, 0x20#8⟩)) =
      some (⟨0x00#8, 0x00#8, 0x00#8, 0xFD#8, 0x20#8⟩, 0xE002#16, .running, [
        .read 0xE000#16 0xF0#8, .read 0xE001#16 0x7F#8]) := by decide +kernel

theorem test_bpl_taken :
    seen (step (start .table 0xE000#16 [(0, 0x10#8), (1, 0x05#8)] [] ⟨0x00#8, 0x00#8, 0x00#8, 0xFD#8, 0x20#8⟩)) =
      some (⟨0x00#8, 0x00#8, 0x00#8, 0xFD#8, 0x20#8⟩, 0xE007#16, .running, [
        .read 0xE000#16 0x10#8, .read 0xE001#16 0x05#8, .read 0xE002#16 0x00#8]) := by decide +kernel

theorem test_bmi_taken :
    seen (step (start .table 0xE000#16 [(0, 0x30#8), (1, 0x05#8)] [] ⟨0x00#8, 0x00#8, 0x00#8, 0xFD#8, 0xA0#8⟩)) =
      some (⟨0x00#8, 0x00#8, 0x00#8, 0xFD#8, 0xA0#8⟩, 0xE007#16, .running, [
        .read 0xE000#16 0x30#8, .read 0xE001#16 0x05#8, .read 0xE002#16 0x00#8]) := by decide +kernel

theorem test_bvc_taken :
    seen (step (start .table 0xE000#16 [(0, 0x50#8), (1, 0x02#8)] [] ⟨0x00#8, 0x00#8, 0x00#8, 0xFD#8, 0x20#8⟩)) =
      some (⟨0x00#8, 0x00#8, 0x00#8, 0xFD#8, 0x20#8⟩, 0xE004#16, .running, [
        .read 0xE000#16 0x50#8, .read 0xE001#16 0x02#8, .read 0xE002#16 0x00#8]) := by decide +kernel

theorem test_bvs_taken :
    seen (step (start .table 0xE000#16 [(0, 0x70#8), (1, 0x10#8)] [] ⟨0x00#8, 0x00#8, 0x00#8, 0xFD#8, 0x60#8⟩)) =
      some (⟨0x00#8, 0x00#8, 0x00#8, 0xFD#8, 0x60#8⟩, 0xE012#16, .running, [
        .read 0xE000#16 0x70#8, .read 0xE001#16 0x10#8, .read 0xE002#16 0x00#8]) := by decide +kernel

theorem test_bcc_taken :
    seen (step (start .table 0xE000#16 [(0, 0x90#8)] [] ⟨0x00#8, 0x00#8, 0x00#8, 0xFD#8, 0x20#8⟩)) =
      some (⟨0x00#8, 0x00#8, 0x00#8, 0xFD#8, 0x20#8⟩, 0xE002#16, .running, [
        .read 0xE000#16 0x90#8, .read 0xE001#16 0x00#8, .read 0xE002#16 0x00#8]) := by decide +kernel

theorem test_bcs_not_taken :
    seen (step (start .table 0xE000#16 [(0, 0xB0#8), (1, 0x10#8)] [] ⟨0x00#8, 0x00#8, 0x00#8, 0xFD#8, 0x20#8⟩)) =
      some (⟨0x00#8, 0x00#8, 0x00#8, 0xFD#8, 0x20#8⟩, 0xE002#16, .running, [
        .read 0xE000#16 0xB0#8, .read 0xE001#16 0x10#8]) := by decide +kernel

theorem test_bra_back :
    seen (step (start .table 0xE010#16 [(16, 0x80#8), (17, 0x80#8)] [] ⟨0x00#8, 0x00#8, 0x00#8, 0xFD#8, 0x20#8⟩)) =
      some (⟨0x00#8, 0x00#8, 0x00#8, 0xFD#8, 0x20#8⟩, 0xDF92#16, .running, [
        .read 0xE010#16 0x80#8, .read 0xE011#16 0x80#8, .read 0xE012#16 0x00#8, .read 0xE092#16 0x00#8]) := by decide +kernel

/-! Section 3.8 of the vectors: BRK, RTI, no-operations, HALT. -/

theorem test_brk_stack_wraps :
    seen (step (start .table 0xE000#16 [(8191, 0xE1#8)] [] ⟨0x00#8, 0x00#8, 0x00#8, 0x01#8, 0x28#8⟩)) =
      some (⟨0x00#8, 0x00#8, 0x00#8, 0xFE#8, 0x2C#8⟩, 0xE100#16, .running, [
        .read 0xE000#16 0x00#8, .read 0xE001#16 0x00#8, .write 0x0101#16 0xE0#8, .write 0x0100#16 0x02#8,
        .write 0x01FF#16 0x38#8, .read 0xFFFE#16 0x00#8, .read 0xFFFF#16 0xE1#8]) := by decide +kernel

theorem test_rti :
    seen (step (start .table 0xE000#16 [(0, 0x40#8)] [(509, 0xCF#8), (510, 0x34#8), (511, 0x12#8)] ⟨0x00#8, 0x00#8, 0x00#8, 0xFC#8, 0x20#8⟩)) =
      some (⟨0x00#8, 0x00#8, 0x00#8, 0xFF#8, 0xEF#8⟩, 0x1234#16, .running, [
        .read 0xE000#16 0x40#8, .read 0xE001#16 0x00#8, .read 0x01FC#16 0x00#8, .read 0x01FD#16 0xCF#8,
        .read 0x01FE#16 0x34#8, .read 0x01FF#16 0x12#8]) := by decide +kernel

theorem test_nop :
    seen (step (start .table 0xE000#16 [(0, 0xEA#8)] [] ⟨0x00#8, 0x00#8, 0x00#8, 0xFD#8, 0x20#8⟩)) =
      some (⟨0x00#8, 0x00#8, 0x00#8, 0xFD#8, 0x20#8⟩, 0xE001#16, .running, [
        .read 0xE000#16 0xEA#8, .read 0xE001#16 0x00#8]) := by decide +kernel

theorem test_nop1 :
    seen (step (start .table 0xE000#16 [(0, 0x03#8)] [] ⟨0x00#8, 0x00#8, 0x00#8, 0xFD#8, 0x20#8⟩)) =
      some (⟨0x00#8, 0x00#8, 0x00#8, 0xFD#8, 0x20#8⟩, 0xE001#16, .running, [
        .read 0xE000#16 0x03#8]) := by decide +kernel

theorem test_nop_imm :
    seen (step (start .table 0xE000#16 [(0, 0x42#8), (1, 0x99#8)] [] ⟨0x00#8, 0x00#8, 0x00#8, 0xFD#8, 0x20#8⟩)) =
      some (⟨0x00#8, 0x00#8, 0x00#8, 0xFD#8, 0x20#8⟩, 0xE002#16, .running, [
        .read 0xE000#16 0x42#8, .read 0xE001#16 0x99#8]) := by decide +kernel

theorem test_nop_zp :
    seen (step (start .table 0xE000#16 [(0, 0x44#8), (1, 0x10#8)] [] ⟨0x00#8, 0x00#8, 0x00#8, 0xFD#8, 0x20#8⟩)) =
      some (⟨0x00#8, 0x00#8, 0x00#8, 0xFD#8, 0x20#8⟩, 0xE002#16, .running, [
        .read 0xE000#16 0x44#8, .read 0xE001#16 0x10#8, .read 0x0010#16 0x00#8]) := by decide +kernel

theorem test_nop_zpx :
    seen (step (start .table 0xE000#16 [(0, 0x54#8), (1, 0xF0#8)] [] ⟨0x00#8, 0x20#8, 0x00#8, 0xFD#8, 0x20#8⟩)) =
      some (⟨0x00#8, 0x20#8, 0x00#8, 0xFD#8, 0x20#8⟩, 0xE002#16, .running, [
        .read 0xE000#16 0x54#8, .read 0xE001#16 0xF0#8, .read 0x00F0#16 0x00#8, .read 0x0010#16 0x00#8]) := by decide +kernel

theorem test_nop_abs :
    seen (step (start .table 0xE000#16 [(0, 0xFC#8), (2, 0x90#8)] [] ⟨0x00#8, 0x00#8, 0x00#8, 0xFD#8, 0x20#8⟩)) =
      some (⟨0x00#8, 0x00#8, 0x00#8, 0xFD#8, 0x20#8⟩, 0xE003#16, .running, [
        .read 0xE000#16 0xFC#8, .read 0xE001#16 0x00#8, .read 0xE002#16 0x90#8, .read 0x9000#16 0x5A#8]) := by decide +kernel

theorem test_nop_abs8 :
    seen (step (start .table 0xE000#16 [(0, 0x5C#8), (1, 0x34#8), (2, 0x12#8)] [] ⟨0x00#8, 0x00#8, 0x00#8, 0xFD#8, 0x20#8⟩)) =
      some (⟨0x00#8, 0x00#8, 0x00#8, 0xFD#8, 0x20#8⟩, 0xE003#16, .running, [
        .read 0xE000#16 0x5C#8, .read 0xE001#16 0x34#8, .read 0xE002#16 0x12#8, .idle 5]) := by decide +kernel

theorem test_halt :
    seen (step (start .table 0xE000#16 [(0, 0x02#8)] [] ⟨0x00#8, 0x00#8, 0x00#8, 0xFD#8, 0x20#8⟩)) =
      some (⟨0x00#8, 0x00#8, 0x00#8, 0xFD#8, 0x20#8⟩, 0xE001#16, .halted, [
        .read 0xE000#16 0x02#8]) := by decide +kernel

/-! Section 3.10 of the vectors: parameter-gated instructions. -/

theorem test_rmb3 :
    seen (step (start wide 0xE000#16 [(0, 0x37#8), (1, 0x10#8)] [(16, 0xFF#8)] ⟨0x00#8, 0x00#8, 0x00#8, 0xFD#8, 0x20#8⟩)) =
      some (⟨0x00#8, 0x00#8, 0x00#8, 0xFD#8, 0x20#8⟩, 0xE002#16, .running, [
        .read 0xE000#16 0x37#8, .read 0xE001#16 0x10#8, .read 0x0010#16 0xFF#8, .read 0x0010#16 0xFF#8,
        .write 0x0010#16 0xF7#8]) := by decide +kernel

theorem test_smb7 :
    seen (step (start wide 0xE000#16 [(0, 0xF7#8), (1, 0x10#8)] [] ⟨0x00#8, 0x00#8, 0x00#8, 0xFD#8, 0x20#8⟩)) =
      some (⟨0x00#8, 0x00#8, 0x00#8, 0xFD#8, 0x20#8⟩, 0xE002#16, .running, [
        .read 0xE000#16 0xF7#8, .read 0xE001#16 0x10#8, .read 0x0010#16 0x00#8, .read 0x0010#16 0x00#8,
        .write 0x0010#16 0x80#8]) := by decide +kernel

theorem test_bbr0_taken :
    seen (step (start wide 0xE000#16 [(0, 0x0F#8), (1, 0x10#8), (2, 0x05#8)] [(16, 0xFE#8)] ⟨0x00#8, 0x00#8, 0x00#8, 0xFD#8, 0x20#8⟩)) =
      some (⟨0x00#8, 0x00#8, 0x00#8, 0xFD#8, 0x20#8⟩, 0xE008#16, .running, [
        .read 0xE000#16 0x0F#8, .read 0xE001#16 0x10#8, .read 0x0010#16 0xFE#8, .read 0x0010#16 0xFE#8,
        .read 0xE002#16 0x05#8, .read 0xE003#16 0x00#8]) := by decide +kernel

theorem test_bbs7_other_page :
    seen (step (start wide 0xE000#16 [(0, 0xFF#8), (1, 0x10#8), (2, 0xF0#8)] [(16, 0x80#8)] ⟨0x00#8, 0x00#8, 0x00#8, 0xFD#8, 0x20#8⟩)) =
      some (⟨0x00#8, 0x00#8, 0x00#8, 0xFD#8, 0x20#8⟩, 0xDFF3#16, .running, [
        .read 0xE000#16 0xFF#8, .read 0xE001#16 0x10#8, .read 0x0010#16 0x80#8, .read 0x0010#16 0x80#8,
        .read 0xE002#16 0xF0#8, .read 0xE003#16 0x00#8, .read 0xE0F3#16 0x00#8]) := by decide +kernel

theorem test_wai :
    seen (step (start wide 0xE000#16 [(0, 0xCB#8), (1, 0xEA#8)] [] ⟨0x00#8, 0x00#8, 0x00#8, 0xFD#8, 0x20#8⟩)) =
      some (⟨0x00#8, 0x00#8, 0x00#8, 0xFD#8, 0x20#8⟩, 0xE001#16, .waiting, [
        .read 0xE000#16 0xCB#8, .read 0xE001#16 0xEA#8, .read 0xE001#16 0xEA#8]) := by decide +kernel

theorem test_stp :
    seen (step (start wide 0xE000#16 [(0, 0xDB#8), (1, 0xEA#8)] [] ⟨0x00#8, 0x00#8, 0x00#8, 0xFD#8, 0x20#8⟩)) =
      some (⟨0x00#8, 0x00#8, 0x00#8, 0xFD#8, 0x20#8⟩, 0xE001#16, .stopped, [
        .read 0xE000#16 0xDB#8, .read 0xE001#16 0xEA#8, .read 0xE001#16 0xEA#8]) := by decide +kernel

/-! ### Interrupts (section 3.9) -/

/-- The code `EA EA` with the first NOP executed, and both vectors in ROM0. -/
def interrupted (p : Byte) (irq nmi : Bool) : State :=
  { start .table 0xE001#16 [(0, 0xEA#8), (1, 0xEA#8), (0x1FFB, 0xE2#8), (0x1FFF, 0xE1#8)] []
      ⟨0x00#8, 0x00#8, 0x00#8, 0xFF#8, p⟩ with irqLine := irq, nmiPending := nmi }

theorem test_irq_entry :
    see (interrupted 0x23#8 true false).poll = (⟨0x00#8, 0x00#8, 0x00#8, 0xFC#8, 0x27#8⟩, 0xE100#16, .running, [
      .read 0xE001#16 0xEA#8, .read 0xE001#16 0xEA#8, .write 0x01FF#16 0xE0#8, .write 0x01FE#16 0x01#8,
      .write 0x01FD#16 0x23#8, .read 0xFFFE#16 0x00#8, .read 0xFFFF#16 0xE1#8]) := by decide +kernel

theorem test_nmi_entry_pushes_b_clear :
    see (interrupted 0x34#8 true true).poll = (⟨0x00#8, 0x00#8, 0x00#8, 0xFC#8, 0x34#8⟩, 0xE200#16, .running, [
      .read 0xE001#16 0xEA#8, .read 0xE001#16 0xEA#8, .write 0x01FF#16 0xE0#8, .write 0x01FE#16 0x01#8,
      .write 0x01FD#16 0x24#8, .read 0xFFFA#16 0x00#8, .read 0xFFFB#16 0xE2#8]) ∧
    (interrupted 0x34#8 true true).poll.nmiPending = false := by decide +kernel

theorem test_irq_masked :
    seen (step (interrupted 0x24#8 true false)) =
      some (⟨0x00#8, 0x00#8, 0x00#8, 0xFF#8, 0x24#8⟩, 0xE002#16, .running,
        [.read 0xE001#16 0xEA#8, .read 0xE002#16 0x00#8]) := by decide +kernel

/-- `INT_CLEARS_D` clears D after the push (R314). -/
theorem test_interrupt_clears_d_when_set :
    let s := interrupted 0x28#8 true false
    (State.poll { s with params := { s.params with intClearsD := true } }).p = 0x24#8 ∧ s.poll.p = 0x2C#8 := by
  decide +kernel

/-! ### Waiting (R295) -/

def waitingState (inputs : List Input) : State :=
  { start wide 0xE001#16 [(0, 0xCB#8), (1, 0xEA#8)] [] ⟨0x00#8, 0x00#8, 0x00#8, 0xFF#8, 0x24#8⟩ with
    run := .waiting, inputs := inputs }

theorem test_waiting_is_idle :
    seen (step (waitingState [])) =
      some (⟨0x00#8, 0x00#8, 0x00#8, 0xFF#8, 0x24#8⟩, 0xE001#16, .waiting, [.idle 1]) := by decide +kernel

/-- A masked request ends the wait without an entry. -/
theorem test_masked_request_ends_the_wait :
    seen (step (waitingState [⟨true, false, false⟩])) =
      some (⟨0x00#8, 0x00#8, 0x00#8, 0xFF#8, 0x24#8⟩, 0xE002#16, .running,
        [.read 0xE001#16 0xEA#8, .read 0xE002#16 0x00#8]) := by decide +kernel

/-! ### Reset (section 3.13, R340, R341) -/

/-- The state after reset is what the reset sequence makes of the machine at power-on, for every choice of parameters. -/
theorem test_afterReset_is_the_sequence (p : Params) : State.afterReset p = (State.powerOn p).resetSequence := rfl

theorem test_reset_memory_wf :
    Memory.wf State.reset.ramFill.byte 0x8000 State.reset.ram = true ∧
    Memory.wf romBlank 0x2000 State.reset.params.rom0 = true ∧
    Memory.wf romBlank 0x2000 State.reset.params.rom1 = true := ⟨rfl, rfl, rfl⟩

theorem test_reset_vector_in_ram :
    let s := State.afterReset (params .table [(0x1FFC, 0x34#8), (0x1FFD, 0x12#8)])
    s.pc = 0x1234#16 ∧ s.p = 0x20#8 ∧ s.cyc = 2 ∧
    s.busLog = [.read 0xFFFC#16 0x34#8, .read 0xFFFD#16 0x12#8] ∧
    seen (step s) = some (⟨0x00#8, 0x00#8, 0x00#8, 0xFA#8, 0x24#8⟩, 0x0000#16, .running, [
      .read 0x1234#16 0x00#8, .read 0x1235#16 0x00#8, .write 0x01FD#16 0x12#8, .write 0x01FC#16 0x36#8,
      .write 0x01FB#16 0x30#8, .read 0xFFFE#16 0x00#8, .read 0xFFFF#16 0x00#8]) := by decide +kernel

theorem test_reset_requested_during_a_run :
    let s := start .table 0xE000#16 [(0x1FFD, 0xE0#8)] [(16, 0x7F#8)] ⟨0x01#8, 0x02#8, 0x03#8, 0x04#8, 0xFF#8⟩
    seen (step s.requestReset) =
      some (⟨0x01#8, 0x02#8, 0x03#8, 0x04#8, 0x20#8⟩, 0xE000#16, .running, []) ∧
    (thenState (step s.requestReset) s).ram = [] := by decide +kernel

/-! ### Memory -/

/-- A byte that an unlisted cell reads as is stored by listing nothing; the others stand in rising order. -/
theorem test_memory_write_keeps_the_form :
    Memory.write romBlank [(3, 1#8), (9, 2#8)] 5 7#8 = [(3, 1#8), (5, 7#8), (9, 2#8)] ∧
    Memory.write romBlank [(3, 1#8), (9, 2#8)] 3 0#8 = [(9, 2#8)] := by decide

/-- The instruction that is placed for the next step is the one it runs, even where PC stands in the I/O window. -/
theorem test_withFetchWord_runs :
    seen (step (({ State.reset with pc := 0x8000#16 } : State).withFetchWord 16 0x7FA9)) =
      some (⟨0x7F#8, 0x00#8, 0x00#8, 0xFD#8, 0x20#8⟩, 0x0002#16, .running,
        [.read 0x0000#16 0xA9#8, .read 0x0001#16 0x7F#8]) := by decide +kernel

/-! ### Witnesses: the hypotheses of each obligation can be met -/

def plain : Regs := ⟨0x00#8, 0x00#8, 0x00#8, 0xFF#8, 0x20#8⟩

/-- A running machine at NOP, with the given inputs. -/
def atNop (inputs : List Input) : State :=
  { start .table 0xE000#16 [(0, 0xEA#8), (1, 0xEA#8), (0x1FFD, 0xE0#8)] [] plain with inputs := inputs }

/-- AddressMapByRange: the first and the last address of each range. -/
theorem witness_AddressMapByRange :
    (0x0000#16 : Addr).toNat < 0x8000 ∧ (0x7FFF#16 : Addr).toNat < 0x8000 ∧
    (0x8000 ≤ (0x8000#16 : Addr).toNat ∧ (0x8000#16 : Addr).toNat < 0xC000) ∧
    (0x8000 ≤ (0xBFFF#16 : Addr).toNat ∧ (0xBFFF#16 : Addr).toNat < 0xC000) ∧
    (0xC000 ≤ (0xC000#16 : Addr).toNat ∧ (0xC000#16 : Addr).toNat < 0xE000) ∧
    (0xC000 ≤ (0xDFFF#16 : Addr).toNat ∧ (0xDFFF#16 : Addr).toNat < 0xE000) ∧
    0xE000 ≤ (0xE000#16 : Addr).toNat ∧ 0xE000 ≤ (0xFFFF#16 : Addr).toNat := by decide

theorem witness_PlaceholderReadsAndDiscardedWrites :
    State.reset.params.openBus = .standard ∧
    (0x8000 ≤ (0x8000#16 : Addr).toNat ∧ (0x8000#16 : Addr).toNat < 0xC000) ∧
    (0x8000 ≤ (0xBFFF#16 : Addr).toNat ∧ (0xBFFF#16 : Addr).toNat < 0xC000) := ⟨rfl, by decide, by decide⟩

theorem witness_ResetSequenceLeavesTheResetState :
    let random : Params := { Params.standard with ramInit := .random }
    ((State.powerOn Params.standard).run = .boot ∧ (State.powerOn Params.standard).params.ramInit = .zero) ∧
    ((State.powerOn random).run = .boot ∧ (State.powerOn random).params.ramInit = .random) := ⟨⟨rfl, rfl⟩, rfl, rfl⟩

theorem witness_ResetMeetsInvariant :
    Memory.wf romBlank 0x2000 (params .table [(0, 0xEA#8), (0x1FFF, 0xE1#8)]).rom0 = true ∧
    Memory.wf romBlank 0x2000 (params .table [(0, 0xEA#8), (0x1FFF, 0xE1#8)]).rom1 = true := by decide

/-- StepKeepsInvariant, LogExplainsMemory, CyclesAndLogAreNeverRead: a running machine, and one in `Boot`. -/
theorem witness_StepKeepsInvariant :
    (atNop []).Inv ∧ (atNop []).run ≠ .boot ∧ (∃ t, step (atNop []) = .next t) ∧
    (State.powerOn (params .table [])).Inv ∧ ∃ t, step (State.powerOn (params .table [])) = .next t :=
  ⟨⟨rfl, rfl, rfl, rfl, rfl, fun _ => rfl⟩, by decide, ⟨_, rfl⟩,
    ⟨rfl, rfl, rfl, rfl, rfl, fun h => absurd rfl h⟩, ⟨_, rfl⟩⟩

/-- RegistersWrittenOnlyByListed: an instruction that changes each register. -/
theorem witness_RegistersWrittenOnlyByListed :
    let s := start .table 0xE000#16 [] [] plain
    (∃ t, exec (.lda (.imm 0x01#8)) s = .next t ∧ t.a ≠ s.a) ∧ (∃ t, exec (.ldx (.imm 0x01#8)) s = .next t ∧ t.x ≠ s.x) ∧
    (∃ t, exec (.ldy (.imm 0x01#8)) s = .next t ∧ t.y ≠ s.y) ∧ (∃ t, exec .txs s = .next t ∧ t.sp ≠ s.sp) ∧
    ∃ t, exec (.jmpAbs 0x1234#16) s = .next t ∧ t.pc ≠ s.pc :=
  ⟨⟨_, rfl, by decide⟩, ⟨_, rfl, by decide⟩, ⟨_, rfl, by decide⟩, ⟨_, rfl, by decide⟩, ⟨_, rfl, by decide⟩⟩

/-- StatusBitsWrittenOnlyByListed: an instruction that changes each bit, and a state whose bit 5 is 1. -/
theorem witness_StatusBitsWrittenOnlyByListed :
    let s := start .table 0xE000#16 [] [(0x0100, 0x10#8)] ⟨0x7F#8, 0x00#8, 0x00#8, 0xFF#8, 0x20#8⟩
    (∃ t, exec .sec s = .next t ∧ t.flagC ≠ s.flagC) ∧ (∃ t, exec .sei s = .next t ∧ t.flagI ≠ s.flagI) ∧
    (∃ t, exec .sed s = .next t ∧ t.flagD ≠ s.flagD) ∧ (∃ t, exec .plp s = .next t ∧ t.flagB ≠ s.flagB) ∧
    (∃ t, exec (.adc (.imm 0x01#8)) s = .next t ∧ t.flagV ≠ s.flagV) ∧
    (∃ t, exec (.lda (.imm 0x00#8)) s = .next t ∧ t.flagZ ≠ s.flagZ) ∧
    (∃ t, exec (.lda (.imm 0x80#8)) s = .next t ∧ t.flagN ≠ s.flagN) ∧ s.p.getLsbD 5 = true :=
  ⟨⟨_, rfl, by decide +kernel⟩, ⟨_, rfl, by decide +kernel⟩, ⟨_, rfl, by decide +kernel⟩, ⟨_, rfl, by decide +kernel⟩,
    ⟨_, rfl, by decide +kernel⟩, ⟨_, rfl, by decide +kernel⟩, ⟨_, rfl, by decide +kernel⟩, by decide⟩

/-- DecodeInvertsEncode: well-formed instructions of the first and the last variant. -/
theorem witness_DecodeInvertsEncode :
    Instr.wf .table (.lda (.mem (.izy 0xFF#8))) = true ∧ Instr.wf .table (.nop1 0xFF#8) = true ∧
    Instr.wf wide (.bbs 7#3 0xFF#8 0x80#8) = true ∧ Instr.wf wide .wai = true := by decide

theorem witness_StepRunsTheDecodedInstruction :
    let s := atNop []
    let u := s.sampleInputs
    s.run = .running ∧ s.stopRequested = false ∧
    u.stopRequested = false ∧ u.nmiPending = false ∧ (u.irqLine && !u.flagI) = false := by decide

theorem witness_HaltedAndStoppedAreTerminal :
    ((atNop []).setRun .halted).run = .halted ∧ ((atNop []).setRun .stopped).run = .stopped := ⟨rfl, rfl⟩

/-- PollOrder: a state for each clause. -/
theorem witness_PollOrder :
    let masked (inputs : List Input) : State := (atNop inputs).setP 0x24#8
    ((atNop [⟨true, true, true⟩]).run = .running ∧ (atNop [⟨true, true, true⟩]).stopRequested = false ∧
      (atNop [⟨true, true, true⟩]).sampleInputs.stopRequested = true) ∧
    ((atNop [⟨true, true, false⟩]).sampleInputs.stopRequested = false ∧
      (atNop [⟨true, true, false⟩]).sampleInputs.nmiPending = true) ∧
    ((atNop [⟨true, false, false⟩]).sampleInputs.nmiPending = false ∧
      (atNop [⟨true, false, false⟩]).sampleInputs.irqLine = true ∧ (atNop [⟨true, false, false⟩]).flagI = false) ∧
    ((masked [⟨true, false, false⟩]).sampleInputs.nmiPending = false ∧
      (masked [⟨true, false, false⟩]).sampleInputs.irqLine = true ∧ (masked [⟨true, false, false⟩]).flagI = true) ∧
    ((atNop []).sampleInputs.stopRequested = false ∧ (atNop []).sampleInputs.nmiPending = false ∧
      (atNop []).sampleInputs.irqLine = false) := by decide

theorem witness_InputsAreSampledAtBoundaries :
    (atNop [⟨true, true, false⟩]).inputs = ⟨true, true, false⟩ :: [] ∧
    ({ atNop [] with stopRequested := true } : State).stopRequested = true ∧
    ({ atNop [] with stopRequested := true } : State).run ≠ .boot := by decide

theorem witness_InterruptEntrySequence :
    (nmiVector = 0xFFFA#16 ∨ nmiVector = 0xFFFE#16) ∧ (irqVector = 0xFFFA#16 ∨ irqVector = 0xFFFE#16) := by decide

/-- WaitForInterrupt: a waiting state for each clause. -/
theorem witness_WaitForInterrupt :
    let open_ (inputs : List Input) : State := (waitingState inputs).setP 0x20#8
    ((waitingState []).run = .waiting ∧ (waitingState []).stopRequested = false ∧
      (waitingState []).sampleInputs.nmiPending = false ∧ (waitingState []).sampleInputs.irqLine = false) ∧
    (waitingState [⟨false, false, true⟩]).sampleInputs.stopRequested = true ∧
    ((waitingState [⟨false, true, false⟩]).sampleInputs.stopRequested = false ∧
      (waitingState [⟨false, true, false⟩]).sampleInputs.nmiPending = true) ∧
    ((open_ [⟨true, false, false⟩]).run = .waiting ∧ (open_ [⟨true, false, false⟩]).sampleInputs.nmiPending = false ∧
      (open_ [⟨true, false, false⟩]).sampleInputs.irqLine = true ∧ (open_ [⟨true, false, false⟩]).flagI = false) ∧
    ((waitingState [⟨true, false, false⟩]).sampleInputs.nmiPending = false ∧
      (waitingState [⟨true, false, false⟩]).sampleInputs.irqLine = true ∧
      (waitingState [⟨true, false, false⟩]).flagI = true) := by decide

theorem witness_WaitWithoutSourceNeverEnds :
    (waitingState []).run = .waiting ∧ (waitingState []).stopRequested = false ∧ (waitingState []).inputs = [] ∧
    (waitingState []).nmiPending = false ∧ (waitingState []).irqLine = false := by decide

/-- A JSR to `$E010`, where an RTS stands, with the stack at its lower end. -/
def atCall : State :=
  start .table 0xE000#16 [(0, 0x20#8), (1, 0x10#8), (2, 0xE0#8), (0x10, 0x60#8)] [] ⟨0x00#8, 0x00#8, 0x00#8, 0x00#8, 0x20#8⟩

theorem witness_SubroutineRoundTrip :
    let t := thenState (step atCall) atCall
    Quiet atCall ∧ atCall.stored atCall.pc = some 0x20#8 ∧ atCall.stored (atCall.pc + 1#16) = some 0x10#8 ∧
    atCall.stored (atCall.pc + 2#16) = some 0xE0#8 ∧ step atCall = .next t ∧
    t.stored (mkAddr 0xE0#8 0x10#8) = some 0x60#8 :=
  ⟨⟨rfl, rfl, rfl, rfl, rfl⟩, rfl, rfl, rfl, rfl, by decide +kernel⟩

/-- A BRK whose handler at `$E100` is an RTI. -/
def atBreak : State :=
  start .table 0xE000#16 [(0x100, 0x40#8), (0x1FFF, 0xE1#8)] [] ⟨0x00#8, 0x00#8, 0x00#8, 0x01#8, 0x29#8⟩

theorem witness_BreakAndReturn :
    let t := thenState (step atBreak) atBreak
    Quiet atBreak ∧ atBreak.stored atBreak.pc = some 0x00#8 ∧ step atBreak = .next t ∧ t.stored t.pc = some 0x40#8 :=
  ⟨⟨rfl, rfl, rfl, rfl, rfl⟩, rfl, rfl, by decide +kernel⟩

/-- BranchOnMemoryBit: the first BBR and the last BBS. -/
theorem witness_BranchOnMemoryBit :
    let s (b0 : Byte) : State := start wide 0xE000#16 [(0, b0), (1, 0x10#8), (2, 0x05#8)] [(16, 0x80#8)] plain
    let holds (b0 : Byte) : Prop :=
      Quiet (s b0) ∧ (s b0).params.variant.bitops = .rockwell ∧ b0.toNat % 16 = 0xF ∧
      (s b0).stored (s b0).pc = some b0 ∧ (s b0).stored ((s b0).pc + 1#16) = some 0x10#8 ∧
      (s b0).stored (zeroPage 0x10#8) = some 0x80#8 ∧ ∃ t, step (s b0) = .next t
    holds 0x0F#8 ∧ holds 0xFF#8 :=
  ⟨⟨⟨rfl, rfl, rfl, rfl, rfl⟩, rfl, rfl, rfl, rfl, rfl, ⟨_, rfl⟩⟩,
    ⟨⟨rfl, rfl, rfl, rfl, rfl⟩, rfl, rfl, rfl, rfl, rfl, ⟨_, rfl⟩⟩⟩

theorem witness_BitTestFlags :
    (∃ t, exec (.bit (.imm 0x80#8)) (atNop []) = .next t) ∧
    ∃ t, exec (.bit (.mem (.zp 0x10#8))) (atNop []) = .next t := ⟨⟨_, rfl⟩, ⟨_, rfl⟩⟩

theorem witness_DecimalFlagIsIgnored :
    (Instr.adc (.imm 0x01#8) = .adc (.imm 0x01#8) ∨ Instr.adc (.imm 0x01#8) = .sbc (.imm 0x01#8)) ∧
    (Instr.sbc (.imm 0x01#8) = .adc (.imm 0x01#8) ∨ Instr.sbc (.imm 0x01#8) = .sbc (.imm 0x01#8)) := by decide

theorem witness_LogExplainsMemory : (atNop []).run ≠ .boot ∧ ∃ t, step (atNop []) = .next t := ⟨by decide, ⟨_, rfl⟩⟩

theorem witness_CyclesAndLogAreNeverRead :
    (waitingState []).run ≠ .boot ∧ ∃ t, step (waitingState []) = .next t := ⟨by decide, ⟨_, rfl⟩⟩

/-- FullLapOfPushes: the first and the last push, and an address on either side of the stack page. -/
theorem witness_FullLapOfPushes :
    0 < 256 ∧ 255 < 256 ∧ hiByte 0x00FF#16 ≠ 0x01#8 ∧ hiByte 0x0200#16 ≠ 0x01#8 := by decide

/-- BreakSequence and InterruptEntrySequence: both values of `INT_CLEARS_D`. -/
theorem witness_BreakSequence :
    let s : State := { atNop [] with params := { (atNop []).params with intClearsD := true } }
    s.params.intClearsD = true ∧ (atNop []).params.intClearsD = false := ⟨rfl, rfl⟩

end Sys2Proof.Tests
end

section
/-! The reset sequence (R340, R44): what it leaves in each field and in memory, and the settlement of O7. -/

namespace Sys2Proof.Machine

open Sys2Proof.Rules

/-- Above SysRAM a byte of memory depends on the parameters of the run alone (R38, R61). -/
theorem State.stored_eq_of_params_eq {s t : State} {a : Addr} (hp : t.params = s.params) (ha : 0x8000 ≤ a.toNat) :
    t.stored a = s.stored a := by
  rcases Nat.lt_or_ge a.toNat 0xC000 with hwindow | hrom
  · rw [State.stored_eq_none_iff.mpr ⟨ha, hwindow⟩, State.stored_eq_none_iff.mpr ⟨ha, hwindow⟩]
  rcases Nat.lt_or_ge a.toNat 0xE000 with hrom1 | hrom0
  · rw [State.stored_rom1 hrom hrom1, State.stored_rom1 hrom hrom1, hp]
  · rw [State.stored_rom0 hrom0, State.stored_rom0 hrom0, hp]

/-- A read of an array with no listed index returns what an unlisted index reads as. -/
@[simp] theorem Memory.read_nil (blank : Nat → Byte) (a : Nat) : Memory.read blank [] a = blank a := rfl

theorem step_of_boot {s : State} (h : s.run = .boot) : step s = .next s.resetSequence := by
  simp [step, h]

/-! ### What the reset sequence leaves in each field (R44) -/

@[simp] theorem State.resetSequence_run (s : State) : s.resetSequence.run = .running := rfl
@[simp] theorem State.resetSequence_p (s : State) : s.resetSequence.p = 0x20#8 := rfl
@[simp] theorem State.resetSequence_ram (s : State) : s.resetSequence.ram = [] := rfl
@[simp] theorem State.resetSequence_cyc (s : State) : s.resetSequence.cyc = 2 := rfl
@[simp] theorem State.resetSequence_irqLine (s : State) : s.resetSequence.irqLine = false := rfl
@[simp] theorem State.resetSequence_nmiPending (s : State) : s.resetSequence.nmiPending = false := rfl
@[simp] theorem State.resetSequence_params (s : State) : s.resetSequence.params = s.params := rfl

/-- Both bytes of the reset vector stand in ROM0, so that what the two reads return does not depend on SysRAM. -/
@[simp] theorem State.resetSequence_pc (s : State) :
    s.resetSequence.pc = mkAddr (rom0Byte s.params 0x1FFD) (rom0Byte s.params 0x1FFC) := rfl

@[simp] theorem State.resetSequence_busLog (s : State) :
    s.resetSequence.busLog =
      [.read resetVector (rom0Byte s.params 0x1FFC), .read (resetVector + 1#16) (rom0Byte s.params 0x1FFD)] := rfl

theorem State.resetSequence_regsKept (s : State) : RegsKept s s.resetSequence := ⟨rfl, rfl, rfl, rfl⟩

theorem State.resetSequence_ramFill_of_zero {s : State} (h : s.params.ramInit = .zero) :
    s.resetSequence.ramFill = .zero := by
  simp [State.resetSequence, h]

theorem State.resetSequence_ramFill_of_random {s : State} (h : s.params.ramInit = .random) :
    s.resetSequence.ramFill = .free s.draws := by
  simp [State.resetSequence, h]

/-- After the reset sequence no address of SysRAM is listed: each holds what the fill of this reset gives it. -/
theorem State.resetSequence_stored_sysRam {s : State} {a : Addr} (ha : a.toNat < 0x8000) :
    s.resetSequence.stored a = some (s.resetSequence.ramFill.byte a.toNat) := by
  rw [State.stored_sysRam ha, State.resetSequence_ram, Memory.read_nil]

/-- Settles O7: the fields are those the lemmas above give; SysRAM holds the fill that `RAM_INIT` selects, and the rest of
memory depends on the parameters alone, which are kept. -/
theorem resetSequenceLeavesTheResetState : Obligations.ResetSequenceLeavesTheResetState := by
  intro s hboot
  have hzero : s.params.ramInit = .zero → ∀ a : Addr, a.toNat < 0x8000 → s.resetSequence.stored a = some 0x00#8 := by
    intro hinit a ha
    rw [State.resetSequence_stored_sysRam ha, State.resetSequence_ramFill_of_zero hinit, RamFill.byte]
  have hrandom : s.params.ramInit = .random →
      ∀ a : Addr, a.toNat < 0x8000 → s.resetSequence.stored a = some ((RamFill.free s.draws).byte a.toNat) := by
    intro hinit a ha
    rw [State.resetSequence_stored_sysRam ha, State.resetSequence_ramFill_of_random hinit]
  have hkept : ∀ a : Addr, 0x8000 ≤ a.toNat → s.resetSequence.stored a = s.stored a := fun _ ha =>
    State.stored_eq_of_params_eq s.resetSequence_params ha
  exact ⟨s.resetSequence, step_of_boot hboot, s.resetSequence_run, s.resetSequence_p, s.resetSequence_pc,
    s.resetSequence_regsKept, hzero, fun hinit => ⟨_, hrandom hinit⟩, hkept, s.resetSequence_cyc, s.resetSequence_busLog,
    s.resetSequence_params, s.resetSequence_irqLine, s.resetSequence_nmiPending⟩

end Sys2Proof.Machine
end

section
/-! The rules of a bus read, a bus write, a push and a pop (R61 to R63, R66 to R69): what each returns, stores, logs and
leaves alone; and the settlement of O1, O2, O4 and O5. -/

namespace Sys2Proof.Machine

open Sys2Proof.Rules

/-! ### What is kept where only reads happen -/

theorem ReadsOnly.regsKept {s t : State} (h : ReadsOnly s t) : RegsKept s t := ⟨h.a, h.x, h.y, h.sp⟩

theorem ReadsOnly.sameStored {s t : State} (h : ReadsOnly s t) : SameStored s t := h.stored

theorem ReadsOnly.sameEnv {s t : State} (h : ReadsOnly s t) : SameEnv s t :=
  ⟨h.params, h.inputs, h.irqLine, h.nmiPending, h.stopRequested⟩

/-- What an address may return does not change while only reads happen, though the next placeholder draw does. -/
theorem ReadsOnly.returns_iff {s t : State} (h : ReadsOnly s t) {a : Addr} {v : Byte} : Returns t a v ↔ Returns s a v := by
  simp only [Returns, h.stored, h.params]

theorem Logs.trans {s t u : State} {events events' : List BusEvent} (h : Logs s t events) (h' : Logs t u events') :
    Logs s u (events ++ events') := by
  unfold Logs at *
  rw [h', h, List.append_assoc]

/-! ### One bus access -/

theorem State.busByte_returns (s : State) (a : Addr) : Returns s a (s.busByte a) := s.busByte_cases a

theorem State.afterRead_logs (s : State) (a : Addr) : Logs s (s.afterRead a) [.read a (s.busByte a)] :=
  s.afterRead_busLog a

theorem State.memWrite_storesAt (s : State) (a : Addr) (v : Byte) : StoresAt a v s (s.memWrite a v) := by
  intro b
  simp only [State.memWrite_stored, region_sysRam_iff]

theorem State.memWrite_logs (s : State) (a : Addr) (v : Byte) : Logs s (s.memWrite a v) [.write a v] :=
  s.memWrite_busLog a v

theorem State.memWrite_regsKept (s : State) (a : Addr) (v : Byte) : RegsKept s (s.memWrite a v) :=
  ⟨s.memWrite_a a v, s.memWrite_x a v, s.memWrite_y a v, s.memWrite_sp a v⟩

theorem State.memWrite_sameEnv (s : State) (a : Addr) (v : Byte) : SameEnv s (s.memWrite a v) :=
  ⟨s.memWrite_params a v, s.memWrite_inputs a v, s.memWrite_irqLine a v, s.memWrite_nmiPending a v,
    s.memWrite_stopRequested a v⟩

/-- Settles O1: the ranges of the address decode, and what a write stores there. -/
theorem addressMapByRange : Obligations.AddressMapByRange := by
  intro s a
  exact ⟨s.busByte_returns a, State.stored_sysRam, State.stored_eq_none_iff.mpr,
    fun ⟨hlow, hhigh⟩ => State.stored_rom1 hlow hhigh, State.stored_rom0, s.memWrite_storesAt a⟩

/-- Settles O2: a read is a state change of the kind `ReadsOnly`, and a write changes SysRAM, CYC and LOG alone. -/
theorem busAccessesAreLoggedAndCounted : Obligations.BusAccessesAreLoggedAndCounted := by
  intro s a v
  have hread := s.afterRead_readsOnly a
  exact
    ⟨⟨s.busByte_returns a, s.afterRead_logs a, s.afterRead_cyc a, hread.sameStored, hread.sameEnv, hread.regsKept,
        hread.p, hread.pc, hread.run⟩,
      ⟨s.memWrite_storesAt a v, s.memWrite_logs a v, s.memWrite_cyc a v, s.memWrite_sameEnv a v, s.memWrite_regsKept a v,
        s.memWrite_p a v, s.memWrite_pc a v, s.memWrite_run a v⟩⟩

/-! ### Fetches and pointers -/

/-- A fetch moves PC on and otherwise only reads (R66). -/
theorem State.fetch8_readsOnly (s : State) : ReadsOnly (s.setPc (s.pc + 1#16)) s.fetch8.2 := rfl

theorem State.fetch8_pc_toNat (s : State) : s.fetch8.2.pc.toNat = (s.pc.toNat + 1) % 65536 := by
  simp only [State.fetch8_snd, State.setPc_pc, BitVec.toNat_add, BitVec.toNat_ofNat]

theorem State.read16_logs (s : State) (a0 a1 : Addr) :
    Logs s (s.read16 a0 a1).2 [.read a0 (s.busByte a0), .read a1 ((s.afterRead a0).busByte a1)] :=
  (s.afterRead_logs a0).trans ((s.afterRead a0).afterRead_logs a1)

/-- The high byte of a pointer is what its address may return before the read of the low byte. -/
theorem State.afterRead_busByte_returns (s : State) (a b : Addr) : Returns s b ((s.afterRead a).busByte b) :=
  (s.afterRead_readsOnly a).returns_iff.mp ((s.afterRead a).busByte_returns b)

/-- Settles O4: both operations only read, a fetch with PC moved on; the second read of a pointer follows the first. -/
theorem fetchesAndPointerReads : Obligations.FetchesAndPointerReads := by
  intro s a0 a1
  have hfetch := s.fetch8_readsOnly
  have hread := s.read16_readsOnly a0 a1
  exact
    ⟨⟨s.busByte_returns s.pc, s.fetch8_pc_toNat, s.afterRead_logs s.pc, s.afterRead_cyc s.pc, hfetch.regsKept, hfetch.p,
        hfetch.run, hfetch.sameStored, hfetch.sameEnv⟩,
      s.busByte a0, (s.afterRead a0).busByte a1, s.busByte_returns a0, s.afterRead_busByte_returns a0 a1,
      mkAddr_toNat _ _, s.read16_logs a0 a1, rfl, hread.regsKept, hread.p, hread.pc, hread.run, hread.sameStored,
      hread.sameEnv⟩

/-! ### The stack controller -/

theorem State.push_sp_toNat (s : State) (v : Byte) : (s.push v).sp.toNat = (s.sp.toNat + 255) % 256 := by
  simp only [State.push_eq, State.setSp_sp, BitVec.toNat_sub, BitVec.toNat_ofNat]
  omega

theorem State.push_storesAt (s : State) (v : Byte) : StoresAt (stackAddr s.sp) v s (s.push v) :=
  s.memWrite_storesAt (stackAddr s.sp) v

theorem State.push_logs (s : State) (v : Byte) : Logs s (s.push v) [.write (stackAddr s.sp) v] :=
  s.memWrite_logs (stackAddr s.sp) v

theorem State.push_sameEnv (s : State) (v : Byte) : SameEnv s (s.push v) := s.memWrite_sameEnv (stackAddr s.sp) v

/-- The byte a push stores, wherever SP points: the stack page lies in SysRAM. -/
theorem State.push_stored_same (s : State) (v : Byte) : (s.push v).stored (stackAddr s.sp) = some v := by
  have hram : (stackAddr s.sp).toNat < 0x8000 := (region_sysRam_iff _).mp (region_stackAddr s.sp)
  rw [s.push_storesAt v, if_pos ⟨rfl, hram⟩]

/-- A pop moves SP up and otherwise only reads (R69). -/
theorem State.pop_readsOnly (s : State) : ReadsOnly (s.setSp (s.sp + 1#8)) s.pop.2 := rfl

theorem State.pop_sp (s : State) : s.pop.2.sp = s.sp + 1#8 := rfl

theorem State.pop_sp_toNat (s : State) : s.pop.2.sp.toNat = (s.sp.toNat + 1) % 256 := by
  simp only [State.pop_sp, BitVec.toNat_add, BitVec.toNat_ofNat]

/-- A pop returns a stored byte and never a placeholder: the stack page lies in SysRAM. -/
theorem State.stored_pop_sp (s : State) : s.stored (stackAddr s.pop.2.sp) = some s.pop.1 := by
  have hregion : region (stackAddr (s.sp + 1#8)) = .sysRam := region_stackAddr _
  rw [s.pop_sp, s.pop_fst, State.stored_sysRam ((region_sysRam_iff _).mp hregion), State.busByte_sysRam hregion]

theorem State.pop_logs (s : State) : Logs s s.pop.2 [.read (stackAddr s.pop.2.sp) s.pop.1] :=
  (s.setSp (s.sp + 1#8)).afterRead_logs (stackAddr (s.sp + 1#8))

theorem State.push_pop_sp (s : State) (v : Byte) : (s.push v).pop.2.sp = s.sp := BitVec.sub_add_cancel s.sp 1#8

theorem State.push_pop_fst (s : State) (v : Byte) : (s.push v).pop.1 = v := by
  have hpop := (s.push v).stored_pop_sp
  rw [s.push_pop_sp v, s.push_stored_same v] at hpop
  exact (Option.some.inj hpop).symm

/-- Settles O5: a push is a write at `$0100 | SP` with SP moved down, a pop a read with SP moved up, and the two moves
cancel. -/
theorem pushesAndPops : Obligations.PushesAndPops := by
  intro s v
  have hpop := s.pop_readsOnly
  exact
    ⟨⟨stackAddr_toNat s.sp, s.push_storesAt v, s.push_sp_toNat v, s.push_logs v, rfl, rfl, rfl, rfl, rfl, rfl, rfl,
        s.push_sameEnv v⟩,
      ⟨s.pop_sp_toNat, s.stored_pop_sp, s.pop_logs, rfl, hpop.a, hpop.x, hpop.y, hpop.p, hpop.pc, hpop.run,
        hpop.sameStored, hpop.sameEnv⟩,
      s.push_pop_fst v, s.push_pop_sp v⟩

end Sys2Proof.Machine
end

section
/-! The rules of one shape (R131, R133, R145): when the operation, the opcodes and the cycles of an instruction meet the
scheme of the read class, of the write class and of an implied instruction. -/

namespace Sys2Proof

/-! ### What a mode costs (R103, R135 to R142) -/

/-- The operand bytes of a mode (R103). -/
def Mode.operandBytes : Mode → Nat
  | .acc => 0
  | .abs | .abx | .aby => 2
  | .imm | .zp | .zpx | .zpy | .izx | .izy | .izp => 1

/-- The bus reads that compute the effective address of a mode, without the dummy read at an uncorrected address. -/
def Mode.addressReads : Mode → Nat
  | .acc | .imm | .zp | .abs | .abx | .aby => 0
  | .zpx | .zpy => 1
  | .izy | .izp => 2
  | .izx => 3

/-- The mode adds an index to a 16-bit base, so that its sum can cross a page (R138, R140, R142). -/
def Mode.indexesBase : Mode → Bool
  | .abx | .aby | .izy => true
  | .acc | .imm | .zp | .zpx | .zpy | .abs | .izx | .izp => false

/-- The bus reads of the read class in a mode, where no page is crossed: an immediate operand has been fetched (R133). -/
def Mode.operandReads : Mode → Nat
  | .imm => 0
  | m => m.addressReads + 1

theorem MemMode.operandReads_mode (m : MemMode) : m.mode.operandReads = m.mode.addressReads + 1 := by cases m <;> rfl

theorem MemMode.operands_length (m : MemMode) : m.operands.length = m.mode.operandBytes := by cases m <;> rfl

theorem Src.operands_length (src : Src) : src.operands.length = src.mode.operandBytes := by
  cases src with
  | imm v => rfl
  | mem m => exact m.operands_length

end Sys2Proof

namespace Sys2Proof.Rules

open Sys2Proof.Machine

theorem RegsKept.trans {s t u : State} (h : RegsKept s t) (h' : RegsKept t u) : RegsKept s u := by
  obtain ⟨ha, hx, hy, hsp⟩ := h
  obtain ⟨ha', hx', hy', hsp'⟩ := h'
  exact ⟨ha'.trans ha, hx'.trans hx, hy'.trans hy, hsp'.trans hsp⟩

/-! ### Encoding lines -/

/-- The opcodes of an "Encoding" line, as the encoder lists them. -/
def opcodes (line : List Form) : List (Mode × Byte) := line.map fun f => (f.mode, f.opcode)

theorem opcodeIn_of_mem {line : List Form} {f : Form} (hdistinct : (line.map Form.mode).Nodup) (hf : f ∈ line) :
    opcodeIn (opcodes line) f.mode = some f.opcode := by
  induction line with
  | nil => cases hf
  | cons g rest ih =>
    obtain ⟨hg, hrest⟩ := List.nodup_cons.mp hdistinct
    simp only [opcodes, opcodeIn, List.map_cons, List.lookup_cons] at ih ⊢
    rcases List.mem_cons.mp hf with rfl | hf
    · simp
    · have hne : f.mode ≠ g.mode := fun h => hg (h ▸ List.mem_map_of_mem hf)
      simp [beq_eq_false_iff_ne.mpr hne, ih hrest hf]

theorem opcodeIn_of_not_listed {line : List Form} {mode : Mode} (h : ∀ f ∈ line, f.mode ≠ mode) :
    opcodeIn (opcodes line) mode = none := by
  simpa [opcodeIn, opcodes, List.lookup_eq_none_iff, eq_comm (a := mode)] using h

/-- The encoder lists the instructions `i o`, one for each operand `o`, as the "Encoding" line does, each mode once, and all
their bytes are fetched before they execute. -/
structure Encodes {α : Type} (i : α → Instr) (mode : α → Mode) (operands : α → List Byte) (line : List Form) : Prop where
  opcode : ∀ o, (i o).opcode = opcodeIn (opcodes line) (mode o)
  operands : ∀ o, (i o).operands = operands o
  fetched : ∀ o, fetchCount (i o) = (i o).length
  distinct : (line.map Form.mode).Nodup
  bytes : ∀ f ∈ line, f.bytes = 1 + f.mode.operandBytes

/-- An "Encoding" line holds of a listed instruction whose operation takes the cycles of its form beyond the fetch. -/
theorem Encodes.encodingLine {α : Type} {i : α → Instr} {mode : α → Mode} {operands : α → List Byte} {line : List Form}
    (h : Encodes i mode operands line) {o : α} (hlength : (operands o).length = (mode o).operandBytes) {crossed : Bool}
    {s t : State}
    (hcyc : ∀ f ∈ line, f.mode = mode o → t.cyc + f.bytes = s.cyc + (f.cycles + if f.plus && crossed then 1 else 0)) :
    EncodingLine line (i o) (mode o) (operands o) crossed s t := by
  refine ⟨fun f hf hmode => ?_, fun hnone => ?_⟩
  · have hbytes : (i o).length = f.bytes := by rw [Instr.length, h.operands, hlength, h.bytes f hf, hmode]
    have hencode : encode (i o) = some (f.opcode :: operands o) := by
      rw [encode, h.opcode, h.operands, ← hmode, opcodeIn_of_mem h.distinct hf, Option.map_some]
    refine ⟨hencode, hbytes, ?_⟩
    rw [Costs, h.fetched, hbytes]
    exact hcyc f hf hmode
  · rw [encode, h.opcode, opcodeIn_of_not_listed hnone, Option.map_none]

end Sys2Proof.Rules

namespace Sys2Proof.Machine

open Sys2Proof.Rules

/-! ### The cycles of an effective address -/

/-- A pointer is read from SysRAM, so that its two bytes are those of the state before the reads. -/
theorem zeroPagePointer_fst (d : Byte) (s : State) :
    (zeroPagePointer d s).1 = mkAddr (s.busByte (zeroPage (d + 1#8))) (s.busByte (zeroPage d)) := by
  simp [zeroPagePointer]

theorem indexed_cyc (base : Addr) (index : Byte) (cls : Access) (s : State) :
    (indexed base index cls s).2.cyc =
      s.cyc + if cls ≠ .read ∨ crosses base (base + index.zeroExtend 16) then 1 else 0 := by
  simp only [indexed]
  split_ifs <;> rfl

theorem effAddr_read_cyc (m : MemMode) (s : State) :
    (effAddr m .read s).2.cyc = s.cyc + m.mode.addressReads + if memCrosses m s then 1 else 0 := by
  cases m with
  | zp d | zpx d | zpy d | abs a | izx d | izp d => rfl
  | abx a | aby a => simp [effAddr, indexed_cyc, crosses, memCrosses, indexedBase, MemMode.mode, Mode.addressReads]
  | izy d =>
    simp only [effAddr, indexed_cyc, zeroPagePointer_fst]
    simp [crosses, memCrosses, indexedBase, MemMode.mode, Mode.addressReads, zeroPagePointer]

/-- Outside the read class the dummy read of an indexed mode is always made (R138, R140). -/
theorem effAddr_cyc_of_ne_read (m : MemMode) {cls : Access} (hcls : cls ≠ .read) (s : State) :
    (effAddr m cls s).2.cyc = s.cyc + m.mode.addressReads + m.mode.indexesBase.toNat := by
  cases m with
  | zp d | zpx d | zpy d | abs a | izx d | izp d => rfl
  | abx a | aby a => simp [effAddr, indexed_cyc, hcls, MemMode.mode, Mode.addressReads, Mode.indexesBase]
  | izy d => simp [effAddr, indexed_cyc, hcls, zeroPagePointer, MemMode.mode, Mode.addressReads, Mode.indexesBase]

theorem indexesBase_of_memCrosses {m : MemMode} {s : State} (h : memCrosses m s = true) : m.mode.indexesBase = true := by
  cases m with
  | abx a | aby a | izy d => rfl
  | zp d | zpx d | zpy d | abs a | izx d | izp d => cases h

theorem indexesBase_and_srcCrosses (src : Src) (s : State) :
    (src.mode.indexesBase && srcCrosses src s) = srcCrosses src s := by
  cases src with
  | imm v => rfl
  | mem m => exact Bool.and_eq_right_iff_imp.mpr indexesBase_of_memCrosses

theorem readSrc_cyc (src : Src) (s : State) :
    (readSrc src s).2.cyc = s.cyc + src.mode.operandReads + if srcCrosses src s then 1 else 0 := by
  cases src with
  | imm v => rfl
  | mem m =>
    have hread : (readSrc (.mem m) s).2.cyc = (effAddr m .read s).2.cyc + 1 := rfl
    rw [hread, effAddr_read_cyc, srcCrosses, Src.mode, m.operandReads_mode]
    omega

theorem writeMem_cyc (m : MemMode) (v : Byte) (s : State) :
    (writeMem m v s).cyc = s.cyc + m.mode.addressReads + m.mode.indexesBase.toNat + 1 := by
  rw [writeMem_eq, State.memWrite_cyc, effAddr_cyc_of_ne_read m (by decide)]

/-! ### Operations that write registers and P alone -/

/-- Only A, X, Y, SP and P were written between two states. -/
def RegsOnly (s t : State) : Prop := t = { s with a := t.a, x := t.x, y := t.y, sp := t.sp, p := t.p }

theorem RegsOnly.pc {s t : State} (h : RegsOnly s t) : t.pc = s.pc := by rw [h]
theorem RegsOnly.run {s t : State} (h : RegsOnly s t) : t.run = s.run := by rw [h]
theorem RegsOnly.cyc {s t : State} (h : RegsOnly s t) : t.cyc = s.cyc := by rw [h]
theorem RegsOnly.busLog {s t : State} (h : RegsOnly s t) : t.busLog = s.busLog := by rw [h]; rfl
theorem RegsOnly.sameStored {s t : State} (h : RegsOnly s t) : SameStored s t := by rw [h]; exact fun _ => rfl
theorem RegsOnly.sameEnv {s t : State} (h : RegsOnly s t) : SameEnv s t := by rw [h]; exact ⟨rfl, rfl, rfl, rfl, rfl⟩

theorem SameStored.trans {s t u : State} (h : SameStored s t) (h' : SameStored t u) : SameStored s u :=
  fun b => (h' b).trans (h b)

theorem SameEnv.trans {s t u : State} (h : SameEnv s t) (h' : SameEnv t u) : SameEnv s u := by
  obtain ⟨hparams, hinputs, hirq, hnmi, hstop⟩ := h
  obtain ⟨hparams', hinputs', hirq', hnmi', hstop'⟩ := h'
  exact ⟨hparams'.trans hparams, hinputs'.trans hinputs, hirq'.trans hirq, hnmi'.trans hnmi, hstop'.trans hstop⟩

theorem StoresAt.of_readsOnly {a : Addr} {v : Byte} {s t u : State} (h : ReadsOnly s t) (h' : StoresAt a v t u) :
    StoresAt a v s u := by
  intro b
  rw [h' b, h.stored b]

/-! ### `setZN` (R30) -/

theorem State.setZN_zNFrom (s : State) (v : Byte) : ZNFrom v (s.setZN v) := by
  constructor
  · rw [State.flagZ, State.setZN_eq, State.setP_p, putZN_getLsbD _ _ _ (by decide)]
    rfl
  · rw [State.flagN, State.setZN_eq, State.setP_p, putZN_getLsbD _ _ _ (by decide)]
    exact BitVec.msb_eq_getLsbD_last v

theorem State.setZN_statusKept {s u : State} (hp : u.p = s.p) (v : Byte) : StatusKept [1, 7] s (u.setZN v) := by
  intro k hk hlisted
  obtain ⟨hz, hn⟩ : k ≠ 1 ∧ k ≠ 7 := by simpa using hlisted
  rw [State.setZN_eq, State.setP_p, putZN_getLsbD _ _ _ hk, if_neg hn, if_neg hz, hp]

/-! ### The schemes -/

/-- An instruction whose operation reads its operand and then writes registers and P alone follows the rule of the read class. -/
theorem readRule_of_regsOnly {i : Src → Instr} {line : List Form} {effect : Byte → State → State → Prop}
    (hencodes : Encodes i Src.mode Src.operands line)
    (htimes : ∀ f ∈ line, f.cycles = f.bytes + f.mode.operandReads ∧ f.plus = f.mode.indexesBase)
    (hexec : ∀ src s, ∃ t, exec (i src) s = .next t ∧ RegsOnly (readSrc src s).2 t ∧ effect (readSrc src s).1 s t) :
    ReadRule i line effect := by
  intro src s
  obtain ⟨t, hnext, hregs, heffect⟩ := hexec src s
  have hread := readSrc_readsOnly src s
  have hoperand : OperandIs src s (readSrc src s).1 := by
    cases src with
    | imm v => rfl
    | mem m => exact (effAddr_readsOnly m .read s).returns_iff.mp (State.busByte_returns _ _)
  have hlogs : ReadLogs src (readSrc src s).1 s t := by
    cases src with
    | imm v => exact hregs.busLog
    | mem m => exact hregs.busLog.trans (State.afterRead_busLog _ _)
  have hline : EncodingLine line (i src) src.mode src.operands (srcCrosses src s) s t := by
    refine hencodes.encodingLine src.operands_length fun f hf hmode => ?_
    obtain ⟨hcycles, hplus⟩ := htimes f hf
    rw [hregs.cyc, readSrc_cyc, hcycles, hplus, hmode, indexesBase_and_srcCrosses]
    omega
  exact ⟨_, t, hnext, hoperand, rfl, heffect, hregs.pc.trans hread.pc, hregs.run.trans hread.run,
    hread.sameStored.trans hregs.sameStored, hread.sameEnv.trans hregs.sameEnv, hlogs, hline⟩

/-- An instruction whose operation is the write class with a byte of the state follows the rule of a store. -/
theorem writeRule_of_writeMem {i : MemMode → Instr} {line : List Form} {value : State → Byte}
    (hencodes : Encodes i MemMode.mode MemMode.operands line)
    (htimes : ∀ f ∈ line,
      f.cycles = f.bytes + f.mode.addressReads + f.mode.indexesBase.toNat + 1 ∧ f.plus = false)
    (hexec : ∀ m s, exec (i m) s = .next (writeMem m (value s) s)) : WriteRule i line value := by
  intro m s
  have hread := effAddr_readsOnly m .write s
  have hline : EncodingLine line (i m) m.mode m.operands (memCrosses m s) s (writeMem m (value s) s) := by
    refine hencodes.encodingLine m.operands_length fun f hf hmode => ?_
    obtain ⟨hcycles, hplus⟩ := htimes f hf
    rw [writeMem_cyc, hcycles, hplus, hmode, Bool.false_and, if_neg Bool.false_ne_true]
    omega
  exact ⟨_, hexec m s, (State.memWrite_storesAt _ _ _).of_readsOnly hread,
    hread.regsKept.trans (State.memWrite_regsKept _ _ _), hread.p, hread.pc, hread.run,
    hread.sameEnv.trans (State.memWrite_sameEnv _ _ _), State.memWrite_busLog _ _ _, hline⟩

/-- An instruction of one byte whose operation makes the dummy read and then writes registers and P alone follows the rule of an
implied instruction. -/
theorem impliedRule_of_regsOnly {i : Instr} {opcode : Byte} {effect : State → State → Prop}
    (hencode : encode i = some [opcode]) (hfetched : fetchCount i = 1)
    (hexec : ∀ s, ∃ t, exec i s = .next t ∧ RegsOnly s.implied t ∧ effect s t) : ImpliedRule i opcode effect := by
  refine ⟨hencode, fun s => ?_⟩
  obtain ⟨t, hnext, hregs, heffect⟩ := hexec s
  have hread : ReadsOnly s s.implied := s.afterRead_readsOnly s.pc
  have hlogs : Logs s t [.read s.pc (s.busByte s.pc)] := hregs.busLog.trans (s.afterRead_logs s.pc)
  have hcosts : Costs i s t 2 := by rw [Costs, hregs.cyc, hfetched]; rfl
  exact ⟨_, t, hnext, heffect, hregs.pc.trans hread.pc, hregs.run.trans hread.run,
    hread.sameStored.trans hregs.sameStored, hread.sameEnv.trans hregs.sameEnv, s.busByte_returns s.pc, hlogs, hcosts⟩

end Sys2Proof.Machine
end

section
/-! Loads, stores and register transfers (R160 to R172), and the settlement of O29, O30 and O31. -/

namespace Sys2Proof.Machine

open Sys2Proof.Rules

/-- Settles O29: each load reads its operand and then writes its register, Z and N from that byte. -/
theorem loadsSetTheRegisterAndZN : Obligations.LoadsSetTheRegisterAndZN := by
  refine ⟨?lda, ?ldx, ?ldy⟩
  case lda =>
    refine readRule_of_regsOnly ⟨fun _ => rfl, fun _ => rfl, fun _ => rfl, by decide, by decide⟩ (by decide) fun src s => ?_
    have hread := readSrc_readsOnly src s
    exact ⟨_, rfl, rfl, rfl, State.setZN_zNFrom _ _, State.setZN_statusKept hread.p _, hread.x, hread.y, hread.sp⟩
  case ldx =>
    refine readRule_of_regsOnly ⟨fun _ => rfl, fun _ => rfl, fun _ => rfl, by decide, by decide⟩ (by decide) fun src s => ?_
    have hread := readSrc_readsOnly src s
    exact ⟨_, rfl, rfl, rfl, State.setZN_zNFrom _ _, State.setZN_statusKept hread.p _, hread.a, hread.y, hread.sp⟩
  case ldy =>
    refine readRule_of_regsOnly ⟨fun _ => rfl, fun _ => rfl, fun _ => rfl, by decide, by decide⟩ (by decide) fun src s => ?_
    have hread := readSrc_readsOnly src s
    exact ⟨_, rfl, rfl, rfl, State.setZN_zNFrom _ _, State.setZN_statusKept hread.p _, hread.a, hread.x, hread.sp⟩

/-- Settles O30: the operation of each store is the write class with the byte of its register, or with `$00`. -/
theorem storesWriteTheRegister : Obligations.StoresWriteTheRegister := by
  refine ⟨?sta, ?stx, ?sty, ?stz⟩ <;>
    exact writeRule_of_writeMem ⟨fun _ => rfl, fun _ => rfl, fun _ => rfl, by decide, by decide⟩ (by decide) fun _ _ => rfl

/-- Settles O31: each transfer makes the dummy read and then writes its destination; all but TXS set Z and N. -/
theorem transfersCopyARegister : Obligations.TransfersCopyARegister := by
  refine ⟨?tax, ?tay, ?txa, ?tya, ?tsx, ?txs⟩
  case txs => exact impliedRule_of_regsOnly rfl rfl fun s => ⟨_, rfl, rfl, rfl, rfl, rfl, rfl, rfl⟩
  all_goals
    exact impliedRule_of_regsOnly rfl rfl fun s =>
      ⟨_, rfl, rfl, rfl, State.setZN_zNFrom _ _, State.setZN_statusKept rfl _, rfl, rfl, rfl⟩

end Sys2Proof.Machine
end

section
/-! The stack instructions (R180 to R189): what the push and the pull sequence do, when an instruction follows the rule of a push
or of a pull, and the settlement of O32 and O33. -/

namespace Sys2Proof.Machine

open Sys2Proof.Rules

/-- A read of the stack page returns a stored byte and never a placeholder: the page lies in SysRAM. -/
theorem State.stored_stackAddr (s : State) (sp : Byte) : s.stored (stackAddr sp) = some (s.busByte (stackAddr sp)) := by
  have hregion : region (stackAddr sp) = .sysRam := region_stackAddr sp
  rw [State.stored_sysRam ((region_sysRam_iff _).mp hregion), State.busByte_sysRam hregion]

/-! ### The push sequence (R188) -/

theorem State.pushSequence_logs (s : State) (v : Byte) :
    Logs s (s.pushSequence v) [.read s.pc (s.busByte s.pc), .write (stackAddr s.sp) v] :=
  (s.afterRead_logs s.pc).trans (s.implied.push_logs v)

theorem State.pushSequence_cyc (s : State) (v : Byte) : (s.pushSequence v).cyc = s.cyc + 2 := by
  simp only [State.pushSequence_eq, State.push_eq, State.implied_eq, State.setSp_cyc, State.memWrite_cyc, State.afterRead_cyc]

/-- An instruction of one byte whose operation is the push sequence with a byte of the state follows the rule of a push. -/
theorem pushRule_of_pushSequence {i : Instr} {opcode : Byte} {value : State → Byte}
    (hencode : encode i = some [opcode]) (hfetched : fetchCount i = 1)
    (hexec : ∀ s, exec i s = .next (s.pushSequence (value s))) : PushRule i opcode value := by
  refine ⟨hencode, fun s => ?_⟩
  have hread : ReadsOnly s s.implied := s.afterRead_readsOnly s.pc
  have hstores : StoresAt (stackAddr s.sp) (value s) s (s.pushSequence (value s)) :=
    (s.implied.push_storesAt (value s)).of_readsOnly hread
  have hcosts : Costs i s (s.pushSequence (value s)) 3 := by rw [Costs, s.pushSequence_cyc, hfetched]
  exact ⟨_, _, hexec s, hstores, rfl, rfl, rfl, rfl, rfl, rfl, rfl, hread.sameEnv.trans (s.implied.push_sameEnv _),
    s.busByte_returns s.pc, s.pushSequence_logs _, hcosts⟩

/-- Settles O32: each push is the push sequence with its register; PHP's byte is `pushedStatus true P`, which is `P | $30`. -/
theorem pushInstructions : Obligations.PushInstructions := by
  refine ⟨?pha, ?php, ?phx, ?phy⟩ <;> exact pushRule_of_pushSequence rfl rfl fun _ => rfl

/-! ### The pull sequence (R189) -/

/-- The pull sequence moves SP up and otherwise only reads. -/
theorem State.pullSequence_readsOnly (s : State) : ReadsOnly (s.setSp (s.sp + 1#8)) s.pullSequence.2 := rfl

theorem State.stored_pullSequence (s : State) : s.stored (stackAddr (s.sp + 1#8)) = some s.pullSequence.1 :=
  s.implied.dummyStack.stored_pop_sp

theorem State.pullSequence_logs (s : State) :
    Logs s s.pullSequence.2 [.read s.pc (s.busByte s.pc), .read (stackAddr s.sp) (s.busByte (stackAddr s.sp)),
      .read (stackAddr (s.sp + 1#8)) s.pullSequence.1] := by
  have hdummy := s.implied.afterRead_logs (stackAddr s.sp)
  rw [State.implied_eq, State.afterRead_busByte_sysRam (region_stackAddr s.sp)] at hdummy
  exact ((s.afterRead_logs s.pc).trans hdummy).trans s.implied.dummyStack.pop_logs

theorem State.pullSequence_cyc (s : State) : s.pullSequence.2.cyc = s.cyc + 3 := rfl

/-- An instruction of one byte whose operation is the pull sequence and then writes registers other than SP, and P, alone follows
the rule of a pull. -/
theorem pullRule_of_pullSequence {i : Instr} {opcode : Byte} {effect : Byte → State → State → Prop}
    (hencode : encode i = some [opcode]) (hfetched : fetchCount i = 1)
    (hexec : ∀ s, ∃ t, exec i s = .next t ∧ RegsOnly s.pullSequence.2 t ∧ t.sp = s.pullSequence.2.sp ∧
      effect s.pullSequence.1 s t) : PullRule i opcode effect := by
  refine ⟨hencode, fun s => ?_⟩
  obtain ⟨t, hnext, hregs, hsp, heffect⟩ := hexec s
  have hread := s.pullSequence_readsOnly
  have hlogs := hregs.busLog.trans s.pullSequence_logs
  have hcosts : Costs i s t 4 := by rw [Costs, hregs.cyc, s.pullSequence_cyc, hfetched]
  exact ⟨_, _, _, t, hnext, s.stored_pullSequence, heffect, hsp, hregs.pc.trans hread.pc, hregs.run.trans hread.run,
    hread.sameStored.trans hregs.sameStored, hread.sameEnv.trans hregs.sameEnv, s.busByte_returns s.pc,
    s.stored_stackAddr s.sp, hlogs, hcosts⟩

/-- Settles O33: each pull is the pull sequence and then writes its register, Z and N from the pulled byte; PLP writes P. -/
theorem pullInstructions : Obligations.PullInstructions := by
  refine ⟨?pla, ?plp, ?plx, ?ply⟩
  case plp => exact pullRule_of_pullSequence rfl rfl fun s => ⟨_, rfl, rfl, rfl, rfl, rfl, rfl, rfl⟩
  all_goals
    exact pullRule_of_pullSequence rfl rfl fun s =>
      ⟨_, rfl, rfl, rfl, rfl, State.setZN_zNFrom _ _, State.setZN_statusKept rfl _, rfl, rfl⟩

end Sys2Proof.Machine
end

section
/-! Increment and decrement (R200 to R205): the scheme of a read-modify-write instruction, on memory (R145) and on the accumulator
(R132), and the settlement of O34 and O35. -/

namespace Sys2Proof.Machine

open Sys2Proof.Rules

/-! ### The rmw class (R145) -/

theorem modifyMem_returns (m : MemMode) (f : Byte → Byte) (s : State) :
    Returns s (effAddr m .rmw s).1 (modifyMem m f s).1 :=
  (effAddr_readsOnly m .rmw s).returns_iff.mp (State.busByte_returns _ _)

theorem modifyMem_storesAt (m : MemMode) (f : Byte → Byte) (s : State) :
    StoresAt (effAddr m .rmw s).1 (f (modifyMem m f s).1) s (modifyMem m f s).2 :=
  StoresAt.of_readsOnly
    (((effAddr_readsOnly m .rmw s).trans (State.afterRead_readsOnly _ _)).trans (State.afterRead_readsOnly _ _))
    (State.memWrite_storesAt _ _ _)

/-- The dummy read of the rmw class is a read of its own: in `$8000-$BFFF` it draws a second placeholder. -/
theorem modifyMem_busLog (m : MemMode) (f : Byte → Byte) (s : State) :
    ∃ w, Returns s (effAddr m .rmw s).1 w ∧ (modifyMem m f s).2.busLog = (effAddr m .rmw s).2.busLog ++
      [.read (effAddr m .rmw s).1 (modifyMem m f s).1, .read (effAddr m .rmw s).1 w,
        .write (effAddr m .rmw s).1 (f (modifyMem m f s).1)] := by
  refine ⟨_, (effAddr_readsOnly m .rmw s).returns_iff.mp (State.afterRead_busByte_returns _ (effAddr m .rmw s).1 _), ?_⟩
  simp only [modifyMem_snd, modifyMem_fst, State.memWrite_busLog, State.afterRead_busLog, List.append_assoc,
    List.cons_append, List.nil_append]

theorem modifyMem_cyc (m : MemMode) (f : Byte → Byte) (s : State) :
    (modifyMem m f s).2.cyc = s.cyc + m.mode.addressReads + m.mode.indexesBase.toNat + 3 := by
  rw [modifyMem_snd, State.memWrite_cyc, State.afterRead_cyc, State.afterRead_cyc, effAddr_cyc_of_ne_read m (by decide)]

/-- The rmw class writes memory alone: registers, P, PC and the outside world are those of before. -/
theorem modifyMem_frame (m : MemMode) (f : Byte → Byte) (s : State) :
    RegsKept s (modifyMem m f s).2 ∧ (modifyMem m f s).2.p = s.p ∧ (modifyMem m f s).2.pc = s.pc ∧
      (modifyMem m f s).2.run = s.run ∧ SameEnv s (modifyMem m f s).2 := by
  have hread := effAddr_readsOnly m .rmw s
  exact ⟨hread.regsKept, hread.p, hread.pc, hread.run, hread.sameEnv⟩

/-- Z and N of a byte written after the rmw class, the other flags as before it. -/
theorem modifyMem_setZN_flags (m : MemMode) (f : Byte → Byte) (s : State) (r : Byte) :
    ZNFrom r ((modifyMem m f s).2.setZN r) ∧ StatusKept [1, 7] s ((modifyMem m f s).2.setZN r) := by
  obtain ⟨-, hp, -⟩ := modifyMem_frame m f s
  exact ⟨State.setZN_zNFrom _ _, State.setZN_statusKept hp r⟩

/-! ### The schemes -/

/-- An instruction whose operation is the rmw class and then writes P alone follows the rule of a read-modify-write. -/
theorem modifyRule_of_modifyMem {i : MemMode → Instr} {line : List Form} {f : State → Byte → Byte}
    {flags : Byte → Byte → State → State → Prop}
    (hencodes : Encodes i MemMode.mode MemMode.operands line)
    (htimes : ∀ g ∈ line,
      g.cycles = g.bytes + g.mode.addressReads + g.mode.indexesBase.toNat + 3 ∧ g.plus = false)
    (hexec : ∀ m s, ∃ p, exec (i m) s = .next ((modifyMem m (f s) s).2.setP p) ∧
      flags (modifyMem m (f s) s).1 (f s (modifyMem m (f s) s).1) s ((modifyMem m (f s) s).2.setP p)) :
    ModifyRule i line f flags := by
  intro m s
  obtain ⟨p, hnext, hflags⟩ := hexec m s
  obtain ⟨hregs, -, hpc, hrun, henv⟩ := modifyMem_frame m (f s) s
  obtain ⟨w, hdummy, hlog⟩ := modifyMem_busLog m (f s) s
  have hline : EncodingLine line (i m) m.mode m.operands (memCrosses m s) s ((modifyMem m (f s) s).2.setP p) := by
    refine hencodes.encodingLine m.operands_length fun g hg hmode => ?_
    obtain ⟨hcycles, hplus⟩ := htimes g hg
    rw [State.setP_cyc, modifyMem_cyc, hcycles, hplus, hmode, Bool.false_and, if_neg Bool.false_ne_true]
    omega
  exact ⟨_, w, _, hnext, modifyMem_returns m (f s) s, hdummy, modifyMem_storesAt m (f s) s, hflags, hregs, hpc, hrun, henv,
    hlog, hline⟩

/-- An instruction whose operation is the accumulator form of a read-modify-write and then writes P alone follows its rule. -/
theorem accumulatorRule_of_modifyTgt {i : Instr} {opcode : Byte} {f : State → Byte → Byte}
    {flags : Byte → Byte → State → State → Prop}
    (hencode : encode i = some [opcode]) (hfetched : fetchCount i = 1)
    (hexec : ∀ s, ∃ p, exec i s = .next ((modifyTgt .acc (f s) s).2.setP p) ∧
      flags s.a (f s s.a) s ((modifyTgt .acc (f s) s).2.setP p)) :
    AccumulatorRule i opcode f flags := by
  refine impliedRule_of_regsOnly hencode hfetched fun s => ?_
  obtain ⟨p, hnext, hflags⟩ := hexec s
  exact ⟨_, hnext, rfl, rfl, hflags, rfl, rfl, rfl⟩

/-! ### Steps by one, modulo 256 -/

theorem ofNat_toNat_add_one (v : Byte) : BitVec.ofNat 8 (v.toNat + 1) = v + 1#8 := by
  rw [BitVec.ofNat_add, BitVec.ofNat_toNat, BitVec.setWidth_eq]

theorem ofInt_toNat_sub_one (v : Byte) : BitVec.ofInt 8 ((v.toNat : Int) - 1) = v - 1#8 := by
  rw [Int.sub_eq_add_neg, BitVec.ofInt_add, BitVec.ofInt_neg, BitVec.ofInt_natCast, BitVec.ofNat_toNat, BitVec.setWidth_eq]
  exact (BitVec.sub_eq_add_neg v 1#8).symm

/-- Settles O34: both are the read-modify-write of adding or subtracting 1, with Z and N from the byte written. -/
theorem incrementAndDecrement : Obligations.IncrementAndDecrement := by
  simp only [Obligations.IncrementAndDecrement, ofNat_toNat_add_one, ofInt_toNat_sub_one]
  refine ⟨?inc, ?incA, ?dec, ?decA⟩
  case inc | dec =>
    refine modifyRule_of_modifyMem ⟨fun m => ?_, fun _ => rfl, fun _ => rfl, by decide, by decide⟩ (by decide)
      fun m s => ⟨_, rfl, modifyMem_setZN_flags m _ s _⟩
    -- The encoder's list also has the accumulator's opcode, which is that of no memory mode.
    cases m <;> rfl
  case incA | decA =>
    exact accumulatorRule_of_modifyTgt rfl rfl
      fun s => ⟨_, rfl, State.setZN_zNFrom _ _, State.setZN_statusKept rfl _⟩

/-- Settles O35: each makes the dummy read and then writes its register, Z and N from the register plus or minus 1. -/
theorem indexRegisterSteps : Obligations.IndexRegisterSteps := by
  simp only [Obligations.IndexRegisterSteps, ofNat_toNat_add_one, ofInt_toNat_sub_one]
  refine ⟨?inx, ?iny, ?dex, ?dey⟩ <;>
    exact impliedRule_of_regsOnly rfl rfl fun s =>
      ⟨_, rfl, rfl, rfl, State.setZN_zNFrom _ _, State.setZN_statusKept rfl _, rfl, rfl, rfl⟩

end Sys2Proof.Machine
end

section
/-! Add, subtract and compare (R210 to R216): the ALU in integer arithmetic, the flags that an ALU operation and a compare
leave, and the settlement of O36, O38 and O39. -/

namespace Sys2Proof.Machine

open Sys2Proof.Rules

/-! ### The signed reading of a byte -/

theorem msb_iff_le_toNat (b : Byte) : b.msb = true ↔ 128 ≤ b.toNat := by
  rw [BitVec.msb_eq_decide, decide_eq_true_iff]

theorem toInt_not_eq_neg_sub_one (b : Byte) : (~~~b).toInt = -b.toInt - 1 := by
  have hlt := b.isLt
  rw [BitVec.toInt_eq_toNat_cond, BitVec.toInt_eq_toNat_cond, BitVec.toNat_not]
  omega

theorem and_signBit_ne_zero_iff (b : Byte) : b &&& 0x80#8 ≠ 0#8 ↔ b.msb = true := by
  rw [BitVec.msb_eq_getLsbD_last, show 0x80#8 = BitVec.twoPow 8 7 from rfl, BitVec.and_twoPow]
  split_ifs with hsign
  · exact iff_of_true (by decide) hsign
  · exact iff_of_false (not_not_intro rfl) hsign

/-- The V formula of R215 compares signs: neither operand has the sign of the result. -/
theorem overflowBit_iff_le_toNat (a b r : Byte) :
    (a ^^^ r) &&& (b ^^^ r) &&& 0x80#8 ≠ 0#8 ↔
      ¬(128 ≤ a.toNat ↔ 128 ≤ r.toNat) ∧ ¬(128 ≤ b.toNat ↔ 128 ≤ r.toNat) := by
  simp only [and_signBit_ne_zero_iff, BitVec.msb_and, BitVec.msb_xor, Bool.and_eq_true, bne_iff_ne, ne_eq,
    ← msb_iff_le_toNat, ← Bool.eq_iff_iff]

/-! ### The ALU (R215, R216) -/

theorem aluAdc_v_iff_formula (a b : Byte) (c : Bool) :
    (aluAdc a b c).v = true ↔ (a ^^^ (aluAdc a b c).result) &&& (b ^^^ (aluAdc a b c).result) &&& 0x80#8 ≠ 0#8 := bne_iff_ne

theorem aluAdc_result_toNat (a b : Byte) (c : Bool) :
    (aluAdc a b c).result.toNat = (a.toNat + b.toNat + c.toNat) % 256 := BitVec.toNat_ofNat _ _

/-- V is exactly the signed overflow: the signs say on which side of `-128..127` the signed sum lies. -/
theorem aluAdc_v (a b : Byte) (c : Bool) :
    (aluAdc a b c).v = decide (a.toInt + b.toInt + c.toNat < -128 ∨ 127 < a.toInt + b.toInt + c.toNat) := by
  have ha := a.isLt
  have hb := b.isLt
  have hc : c.toNat ≤ 1 := c.toNat_le
  have hresult := aluAdc_result_toNat a b c
  rw [Bool.eq_iff_iff, decide_eq_true_iff, aluAdc_v_iff_formula, overflowBit_iff_le_toNat,
    BitVec.toInt_eq_toNat_cond, BitVec.toInt_eq_toNat_cond]
  omega

theorem aluSbc_eq_aluAdc_not (a b : Byte) (c : Bool) : aluSbc a b c = aluAdc a (~~~b) c := by
  rw [aluSbc, show 0xFF#8 = BitVec.allOnes 8 from rfl, BitVec.xor_allOnes]

/-- The sum that subtraction forms is the difference plus 256. -/
theorem toNat_add_toNat_not (a b : Byte) (c : Bool) :
    ((a.toNat + (~~~b).toNat + c.toNat : Nat) : Int) = (a.toNat : Int) - b.toNat - (1 - c.toNat) + 256 := by
  have hb := b.isLt
  rw [BitVec.toNat_not]
  omega

theorem aluSbc_result (a b : Byte) (c : Bool) :
    (aluSbc a b c).result = BitVec.ofInt 8 ((a.toNat : Int) - b.toNat - (1 - c.toNat)) := by
  apply BitVec.eq_of_toNat_eq
  have hsum := toNat_add_toNat_not a b c
  rw [aluSbc_eq_aluAdc_not, aluAdc_result_toNat, BitVec.toNat_ofInt]
  omega

theorem aluSbc_c (a b : Byte) (c : Bool) :
    (aluSbc a b c).c = decide (0 ≤ (a.toNat : Int) - b.toNat - (1 - c.toNat)) := by
  have hsum := toNat_add_toNat_not a b c
  rw [aluSbc_eq_aluAdc_not]
  exact decide_eq_decide.mpr (by omega)

theorem aluSbc_v (a b : Byte) (c : Bool) :
    (aluSbc a b c).v =
      decide (a.toInt - b.toInt - (1 - c.toNat) < -128 ∨ 127 < a.toInt - b.toInt - (1 - c.toNat)) := by
  have hsigned : a.toInt + (~~~b).toInt + c.toNat = a.toInt - b.toInt - (1 - c.toNat) := by rw [toInt_not_eq_neg_sub_one]; omega
  rw [aluSbc_eq_aluAdc_not, aluAdc_v, hsigned]

/-- Settles O36: addition by the sum of the bytes and of their signed readings; subtraction is addition of the complement. -/
theorem aluMeetsIntegerArithmetic : Obligations.AluMeetsIntegerArithmetic := by
  intro a b c
  refine ⟨⟨aluAdc_result_toNat a b c, decide_eq_true_iff, aluAdc_v_iff_formula a b c, ?_, beq_iff_eq, rfl⟩,
    aluSbc_eq_aluAdc_not a b c, ?_, ?_, ?_, ?_, beq_iff_eq, rfl⟩
  · rw [aluAdc_v, decide_eq_true_iff]
  · rw [aluSbc_result, BitVec.toNat_ofInt]
    exact Int.toNat_of_nonneg (Int.emod_nonneg _ (by decide))
  · rw [aluSbc_c, decide_eq_true_iff]
  · rw [aluSbc_eq_aluAdc_not]
    exact aluAdc_v_iff_formula a (~~~b) c
  · rw [aluSbc_v, decide_eq_true_iff]

/-! ### ADC and SBC (R210, R211) -/

theorem State.setP_putAlu_flags (s u : State) (r : AluResult) :
    (u.setP (putAlu s.p r)).flagC = r.c ∧ (u.setP (putAlu s.p r)).flagV = r.v ∧
      (u.setP (putAlu s.p r)).flagZ = r.z ∧ (u.setP (putAlu s.p r)).flagN = r.n ∧
      StatusKept [0, 1, 6, 7] s (u.setP (putAlu s.p r)) := by
  refine ⟨putAlu_getLsbD s.p r 0 (by decide), putAlu_getLsbD s.p r 6 (by decide), putAlu_getLsbD s.p r 1 (by decide),
    putAlu_getLsbD s.p r 7 (by decide), fun k hk hlisted => ?_⟩
  obtain ⟨hc, hz, hv, hn⟩ : k ≠ 0 ∧ k ≠ 1 ∧ k ≠ 6 ∧ k ≠ 7 := by simpa using hlisted
  rw [State.setP_p, putAlu_getLsbD _ _ _ hk, if_neg hn, if_neg hz, if_neg hv, if_neg hc]

/-- Settles O38: both read their operand and then write A, C, V, Z and N from the ALU's result. -/
theorem addAndSubtract : Obligations.AddAndSubtract := by
  refine ⟨?adc, ?sbc⟩
  case adc =>
    refine readRule_of_regsOnly ⟨fun _ => rfl, fun _ => rfl, fun _ => rfl, by decide, by decide⟩ (by decide) fun src s => ?_
    have hread := readSrc_readsOnly src s
    obtain ⟨hc, hv, hz, hn, hkept⟩ := State.setP_putAlu_flags s _ (aluAdc s.a (readSrc src s).1 s.flagC)
    exact ⟨_, rfl, rfl, rfl, hc, hv.trans (aluAdc_v _ _ _), ⟨hz, hn⟩, hkept, hread.x, hread.y, hread.sp⟩
  case sbc =>
    refine readRule_of_regsOnly ⟨fun _ => rfl, fun _ => rfl, fun _ => rfl, by decide, by decide⟩ (by decide) fun src s => ?_
    have hread := readSrc_readsOnly src s
    obtain ⟨hc, hv, hz, hn, hkept⟩ := State.setP_putAlu_flags s _ (aluSbc s.a (readSrc src s).1 s.flagC)
    exact ⟨_, rfl, rfl, aluSbc_result _ _ _, hc.trans (aluSbc_c _ _ _), hv.trans (aluSbc_v _ _ _), ⟨hz, hn⟩, hkept,
      hread.x, hread.y, hread.sp⟩

/-! ### Compares (R212 to R214) -/

theorem ofInt_toNat_sub_toNat (a b : Byte) : BitVec.ofInt 8 ((a.toNat : Int) - b.toNat) = a - b := by
  apply BitVec.eq_of_toNat_eq
  rw [BitVec.toNat_ofInt, BitVec.toNat_sub]
  omega

theorem State.setP_putCompare_flags (s u : State) (reg m : Byte) :
    (u.setP (putCompare s.p reg m)).flagC = decide (m.toNat ≤ reg.toNat) ∧
      (u.setP (putCompare s.p reg m)).flagZ = decide (reg = m) ∧
      (u.setP (putCompare s.p reg m)).flagN = (BitVec.ofInt 8 ((reg.toNat : Int) - m.toNat)).getLsbD 7 ∧
      StatusKept [0, 1, 7] s (u.setP (putCompare s.p reg m)) := by
  refine ⟨putCompare_getLsbD s.p reg m 0 (by decide), ?_, ?_, fun k hk hlisted => ?_⟩
  · refine (putCompare_getLsbD s.p reg m 1 (by decide)).trans (decide_eq_decide.mpr ?_)
    exact sub_eq_zero
  · rw [ofInt_toNat_sub_toNat, ← BitVec.msb_eq_getLsbD_last]
    exact putCompare_getLsbD s.p reg m 7 (by decide)
  · obtain ⟨hc, hz, hn⟩ : k ≠ 0 ∧ k ≠ 1 ∧ k ≠ 7 := by simpa using hlisted
    rw [State.setP_p, putCompare_getLsbD _ _ _ _ hk, if_neg hn, if_neg hz, if_neg hc]

/-- Settles O39: each compare reads its operand and then writes C, Z and N alone. -/
theorem compares : Obligations.Compares := by
  refine ⟨?cmp, ?cpx, ?cpy⟩ <;>
  · refine readRule_of_regsOnly ⟨fun _ => rfl, fun _ => rfl, fun _ => rfl, by decide, by decide⟩ (by decide) fun src s => ?_
    obtain ⟨hc, hz, hn, hkept⟩ := State.setP_putCompare_flags s (readSrc src s).2 _ (readSrc src s).1
    exact ⟨_, rfl, rfl, hc, hz, hn, hkept, (readSrc_readsOnly src s).regsKept⟩

end Sys2Proof.Machine
end

section
/-! Logic, bit test, shifts and rotates, test and set or reset bits (R220 to R229): the flags that each kind leaves, the shifts in
integer arithmetic, the scheme of a shift, and the settlement of O41 to O44. -/

namespace Sys2Proof.Machine

open Sys2Proof.Rules

/-! ### AND, ORA and EOR (R220 to R222) -/

/-- Settles O41: each reads its operand and then writes A, and Z and N from the new A. -/
theorem logicOperations : Obligations.LogicOperations := by
  refine ⟨?and, ?ora, ?eor⟩ <;>
  · refine readRule_of_regsOnly ⟨fun _ => rfl, fun _ => rfl, fun _ => rfl, by decide, by decide⟩ (by decide) fun src s => ?_
    have hread := readSrc_readsOnly src s
    exact ⟨_, rfl, rfl, rfl, State.setZN_zNFrom _ _, State.setZN_statusKept hread.p _, hread.x, hread.y, hread.sp⟩

/-! ### Bit tests (R223, R228, R229) -/

theorem StatusKept.mono {listed listed' : List Nat} {s t : State} (hsub : listed ⊆ listed') (h : StatusKept listed s t) :
    StatusKept listed' s t := fun k hk hlisted => h k hk fun hmem => hlisted (hsub hmem)

theorem State.setP_putTest_flags (s u : State) (m : Byte) :
    (u.setP (putTest s.p s.a m)).flagZ = decide (s.a &&& m = 0#8) ∧ StatusKept [1] s (u.setP (putTest s.p s.a m)) := by
  refine ⟨putTest_getLsbD s.p s.a m 1 (by decide), fun k hk hlisted => ?_⟩
  rw [State.setP_p, putTest_getLsbD _ _ _ _ hk, if_neg (by simpa using hlisted)]

theorem State.setP_putBitTest_flags (s u : State) (m : Byte) :
    (u.setP (putBitTest s.p s.a m)).flagN = m.getLsbD 7 ∧ (u.setP (putBitTest s.p s.a m)).flagV = m.getLsbD 6 ∧
      (u.setP (putBitTest s.p s.a m)).flagZ = decide (s.a &&& m = 0#8) ∧
      StatusKept [1, 6, 7] s (u.setP (putBitTest s.p s.a m)) := by
  refine ⟨putBitTest_getLsbD s.p s.a m 7 (by decide), putBitTest_getLsbD s.p s.a m 6 (by decide),
    putBitTest_getLsbD s.p s.a m 1 (by decide), fun k hk hlisted => ?_⟩
  obtain ⟨hz, hv, hn⟩ : k ≠ 1 ∧ k ≠ 6 ∧ k ≠ 7 := by simpa using hlisted
  rw [State.setP_p, putBitTest_getLsbD _ _ _ _ hk, if_neg hn, if_neg hv, if_neg hz]

theorem exec_bit_imm (v : Byte) (s : State) : exec (.bit (.imm v)) s = .next (s.setP (putTest s.p s.a v)) := rfl

theorem exec_bit_mem (m : MemMode) (s : State) :
    exec (.bit (.mem m)) s =
      .next ((readSrc (.mem m) s).2.setP (putBitTest s.p s.a (readSrc (.mem m) s).1)) := rfl

/-- Settles O42: both forms read the operand and then write P alone; they differ in the bits of P they write. -/
theorem bitTestFlags : Obligations.BitTestFlags := by
  refine ⟨?rule, ?immediate, ?memory⟩
  case rule =>
    refine readRule_of_regsOnly ⟨fun _ => rfl, fun _ => rfl, fun _ => rfl, by decide, by decide⟩ (by decide) fun src s => ?_
    have hregs := (readSrc_readsOnly src s).regsKept
    cases src with
    | imm v =>
      obtain ⟨hz, hkept⟩ := State.setP_putTest_flags s s v
      exact ⟨_, exec_bit_imm v s, rfl, hregs, hz, hkept.mono (by decide)⟩
    | mem m =>
      obtain ⟨-, -, hz, hkept⟩ := State.setP_putBitTest_flags s (readSrc (.mem m) s).2 (readSrc (.mem m) s).1
      exact ⟨_, exec_bit_mem m s, rfl, hregs, hz, hkept⟩
  case immediate =>
    intro v s t hnext
    obtain rfl := Host.Outcome.next.inj ((exec_bit_imm v s).symm.trans hnext)
    exact (State.setP_putTest_flags s s v).2
  case memory =>
    intro m s t hnext
    obtain rfl := Host.Outcome.next.inj ((exec_bit_mem m s).symm.trans hnext)
    have hreturns := (effAddr_readsOnly m .read s).returns_iff.mp (State.busByte_returns _ (effAddr m .read s).1)
    obtain ⟨hn, hv, hz, -⟩ := State.setP_putBitTest_flags s (readSrc (.mem m) s).2 (readSrc (.mem m) s).1
    exact ⟨_, hreturns, State.afterRead_busLog _ _, hn, hv, hz⟩

/-- Settles O44: both are the read-modify-write of the bits of A, with Z from the byte read; R229 writes the complement of A as
`A ^ $FF`. -/
theorem testAndSetOrResetBits : Obligations.TestAndSetOrResetBits := by
  have hnot (a : Byte) : ~~~a = a ^^^ 0xFF#8 := BitVec.xor_allOnes.symm
  simp only [Obligations.TestAndSetOrResetBits, hnot]
  refine ⟨?tsb, ?trb⟩ <;>
    exact modifyRule_of_modifyMem ⟨fun _ => rfl, fun _ => rfl, fun _ => rfl, by decide, by decide⟩ (by decide)
      fun m s => ⟨_, rfl, State.setP_putTest_flags s _ _⟩

/-! ### Shifts and rotates (R224 to R227) -/

/-- ROL doubles, and the carry enters as 1. -/
theorem shiftRol_result (v : Byte) (c : Bool) : (shiftRol v c).result = BitVec.ofNat 8 (2 * v.toNat + c.toNat) := by
  apply BitVec.eq_of_toNat_eq
  have hc : c.toNat < 2 ^ 1 := c.toNat_lt
  have hv : (v <<< 1).toNat = 2 ^ 1 * (v.toNat % 128) := by rw [BitVec.toNat_shiftLeft, Nat.shiftLeft_eq]; omega
  have hin : ((BitVec.ofBool c).zeroExtend 8).toNat = c.toNat := by cases c <;> rfl
  rw [shiftRol, BitVec.toNat_or, hv, hin, ← Nat.two_pow_add_eq_or_of_lt hc, BitVec.toNat_ofNat]
  omega

/-- ROR halves, and the carry enters as 128. -/
theorem shiftRor_result (v : Byte) (c : Bool) : (shiftRor v c).result = BitVec.ofNat 8 (v.toNat / 2 + 128 * c.toNat) := by
  apply BitVec.eq_of_toNat_eq
  have hc : c.toNat < 2 := c.toNat_lt
  have hlt := v.isLt
  have hhalf : v.toNat / 2 < 2 ^ 7 := by omega
  have hv : (v >>> 1).toNat = v.toNat / 2 := by rw [BitVec.toNat_ushiftRight, Nat.shiftRight_eq_div_pow, pow_one]
  have hin : ((BitVec.ofBool c).zeroExtend 8 <<< 7).toNat = 2 ^ 7 * c.toNat := by cases c <;> rfl
  rw [shiftRor, BitVec.toNat_or, hv, hin, Nat.or_comm, ← Nat.two_pow_add_eq_or_of_lt hhalf, BitVec.toNat_ofNat]
  omega

/-- ASL is ROL with C clear. -/
theorem shiftAsl_eq_shiftRol (v : Byte) : shiftAsl v = shiftRol v false := by simp [shiftAsl, shiftRol]

/-- LSR is ROR with C clear. -/
theorem shiftLsr_eq_shiftRor (v : Byte) : shiftLsr v = shiftRor v false := by simp [shiftLsr, shiftRor]

theorem shiftAsl_result (v : Byte) : (shiftAsl v).result = BitVec.ofNat 8 (2 * v.toNat + false.toNat) := by
  rw [shiftAsl_eq_shiftRol, shiftRol_result]

theorem shiftLsr_result (v : Byte) : (shiftLsr v).result = BitVec.ofNat 8 (v.toNat / 2 + 128 * false.toNat) := by
  rw [shiftLsr_eq_shiftRor, shiftRor_result]

theorem State.setP_putShift_flags (s u : State) (r : ShiftResult) :
    (u.setP (putShift s.p r)).flagC = r.c ∧ ZNFrom r.result (u.setP (putShift s.p r)) ∧
      StatusKept [0, 1, 7] s (u.setP (putShift s.p r)) := by
  refine ⟨putShift_getLsbD s.p r 0 (by decide), ⟨putShift_getLsbD s.p r 1 (by decide), ?_⟩, fun k hk hlisted => ?_⟩
  · rw [← BitVec.msb_eq_getLsbD_last]
    exact putShift_getLsbD s.p r 7 (by decide)
  · obtain ⟨hc, hz, hn⟩ : k ≠ 0 ∧ k ≠ 1 ∧ k ≠ 7 := by simpa using hlisted
    rw [State.setP_p, putShift_getLsbD _ _ _ hk, if_neg hn, if_neg hz, if_neg hc]

/-- The flags of a shift of `v` to `r` that moves bit `out` into C: Z and N are those of `r`, and no other bit of P changes. -/
def ShiftFlags (out : Nat) (v r : Byte) (s t : State) : Prop :=
  t.flagC = v.getLsbD out ∧ ZNFrom r t ∧ StatusKept [0, 1, 7] s t

/-- An instruction whose operation is the read-modify-write of a shift and then writes P with `putShift` follows the rule of a
shift, on memory and on the accumulator. -/
theorem shiftRules {i : Tgt → Instr} {line : List Form} {opcode : Byte} {shift : State → Byte → ShiftResult}
    {f : State → Byte → Byte} {out : Nat}
    (hencodes : Encodes (fun m => i (.mem m)) MemMode.mode MemMode.operands line)
    (htimes : ∀ g ∈ line,
      g.cycles = g.bytes + g.mode.addressReads + g.mode.indexesBase.toNat + 3 ∧ g.plus = false)
    (hencode : encode (i .acc) = some [opcode]) (hfetched : fetchCount (i .acc) = 1)
    (hresult : ∀ s v, (shift s v).result = f s v) (hcarry : ∀ s v, (shift s v).c = v.getLsbD out)
    (hexec : ∀ t s, exec (i t) s = .next ((modifyTgt t (fun v => (shift s v).result) s).2.setP
      (putShift s.p (shift s (modifyTgt t (fun v => (shift s v).result) s).1)))) :
    ModifyRule (fun m => i (.mem m)) line f (ShiftFlags out) ∧ AccumulatorRule (i .acc) opcode f (ShiftFlags out) := by
  obtain rfl : (fun s v => (shift s v).result) = f := funext₂ hresult
  have hflags (s u : State) (v : Byte) : ShiftFlags out v (shift s v).result s (u.setP (putShift s.p (shift s v))) := by
    rw [ShiftFlags, ← hcarry s v]
    exact State.setP_putShift_flags s u (shift s v)
  exact ⟨modifyRule_of_modifyMem hencodes htimes fun m s => ⟨_, hexec (.mem m) s, hflags s _ _⟩,
    accumulatorRule_of_modifyTgt hencode hfetched fun s => ⟨_, hexec .acc s, hflags s _ _⟩⟩

/-- Settles O43: each shift meets the scheme with its result in integer arithmetic. -/
theorem shiftsAndRotates : Obligations.ShiftsAndRotates := by
  refine ⟨shiftRules ⟨?asl, fun _ => rfl, fun _ => rfl, by decide, by decide⟩ (by decide) rfl rfl
      (fun _ v => shiftAsl_result v) (fun _ _ => rfl) fun _ _ => rfl,
    shiftRules ⟨?lsr, fun _ => rfl, fun _ => rfl, by decide, by decide⟩ (by decide) rfl rfl
      (fun _ v => shiftLsr_result v) (fun _ _ => rfl) fun _ _ => rfl,
    shiftRules ⟨?rol, fun _ => rfl, fun _ => rfl, by decide, by decide⟩ (by decide) rfl rfl
      (fun s v => shiftRol_result v s.flagC) (fun _ _ => rfl) fun _ _ => rfl,
    shiftRules ⟨?ror, fun _ => rfl, fun _ => rfl, by decide, by decide⟩ (by decide) rfl rfl
      (fun s v => shiftRor_result v s.flagC) (fun _ _ => rfl) fun _ _ => rfl⟩
  -- The encoder's lists also have the accumulator's opcodes, which are those of no memory mode.
  all_goals
    intro m
    cases m <;> rfl

end Sys2Proof.Machine
end

section
/-! The flag operations (R240 to R246): what one written bit leaves of P, the scheme of a flag operation, and the settlement of
O45. -/

namespace Sys2Proof.Machine

open Sys2Proof.Rules

theorem State.putFlag_p_getLsbD (s : State) {bit : Nat} (hbit : bit < 8) (value : Bool) :
    (s.putFlag bit value).p.getLsbD bit = value :=
  (putBit_getLsbD s.p bit bit value hbit).trans (if_pos rfl)

theorem State.putFlag_statusKept {s u : State} (hp : u.p = s.p) (bit : Nat) (value : Bool) :
    StatusKept [bit] s (u.putFlag bit value) := by
  intro k hk hlisted
  rw [State.putFlag_eq, State.setP_p, putBit_getLsbD _ _ _ _ hk, if_neg (by simpa using hlisted), hp]

/-- An instruction of one byte whose operation makes the dummy read and then writes one bit of P follows the rule of a flag
operation. -/
theorem flagRule_of_putFlag {i : Instr} {opcode : Byte} {bit : Nat} {value : Bool} (hencode : encode i = some [opcode])
    (hfetched : fetchCount i = 1) (hbit : bit < 8) (hexec : ∀ s, exec i s = .next (s.implied.putFlag bit value)) :
    FlagRule i opcode bit value := by
  refine impliedRule_of_regsOnly hencode hfetched fun s => ?_
  have hread : ReadsOnly s s.implied := s.afterRead_readsOnly s.pc
  exact ⟨_, hexec s, rfl, hread.regsKept, s.implied.putFlag_p_getLsbD hbit value, State.putFlag_statusKept hread.p bit value⟩

/-- Settles O45: the operation of each is the dummy read and then one bit of P. -/
theorem flagOperations : Obligations.FlagOperations := by
  refine ⟨?clc, ?sec, ?cld, ?sed, ?cli, ?sei, ?clv⟩ <;>
    exact flagRule_of_putFlag rfl rfl (by decide) fun _ => rfl

end Sys2Proof.Machine
end

section
/-! Jumps, subroutine call and return, branches (R250 to R264): what a jump through a pointer, the push and the pop of a return
address and a branch do, and the settlement of O46, O47, O48 and O50. -/

namespace Sys2Proof.Machine

open Sys2Proof.Rules

/-! ### Jumps (R250 to R252) -/

/-- The pointer of JMP (abs,X), a sum modulo 65536. -/
theorem ofNat_toNat_add_toNat (a : Addr) (x : Byte) : BitVec.ofNat 16 (a.toNat + x.toNat) = a + x.zeroExtend 16 := by
  rw [BitVec.ofNat_add, BitVec.ofNat_toNat, BitVec.ofNat_toNat, BitVec.setWidth_eq, BitVec.zeroExtend_eq_setWidth]

/-- An indirect jump re-reads its third byte, then reads its target at the pointer, and otherwise writes PC alone. -/
theorem jump_of_pointer {i : Instr} {s : State} {ptr : Addr} (hfetched : fetchCount i = 3)
    (hexec : exec i s = .next (((s.dummyRead (s.pc - 1#16)).read16 ptr (ptr + 1#16)).2.setPc
      ((s.dummyRead (s.pc - 1#16)).read16 ptr (ptr + 1#16)).1)) :
    ∃ w lo hi t, exec i s = .next t ∧
      Returns s (s.pc - 1#16) w ∧ Returns s ptr lo ∧ Returns s (ptr + 1#16) hi ∧ t.pc = mkAddr hi lo ∧
      Logs s t [.read (s.pc - 1#16) w, .read ptr lo, .read (ptr + 1#16) hi] ∧ Costs i s t 6 ∧
      RegsKept s t ∧ t.p = s.p ∧ t.run = s.run ∧ SameStored s t ∧ SameEnv s t := by
  have hdummy := s.afterRead_readsOnly (s.pc - 1#16)
  have hread := hdummy.trans (State.read16_readsOnly _ ptr (ptr + 1#16))
  have hhigh := hdummy.returns_iff.mp ((s.afterRead (s.pc - 1#16)).afterRead_busByte_returns ptr (ptr + 1#16))
  have hlogs := (s.afterRead_logs (s.pc - 1#16)).trans (State.read16_logs _ ptr (ptr + 1#16))
  have hcosts : Costs i s ((s.afterRead (s.pc - 1#16)).read16 ptr (ptr + 1#16)).2 6 := by rw [Costs, hfetched]; rfl
  exact ⟨_, _, _, _, hexec, s.busByte_returns _, s.afterRead_busByte_returns _ ptr, hhigh, rfl, hlogs, hcosts,
    hread.regsKept, hread.p, hread.run, hread.sameStored, hread.sameEnv⟩

/-- Settles O46: JMP abs writes PC alone; the two indirect forms differ in their pointer. -/
theorem jumps : Obligations.Jumps := by
  intro a s
  simp only [ofNat_toNat_add_toNat]
  refine ⟨⟨rfl, ?abs⟩, ⟨rfl, jump_of_pointer rfl rfl⟩, ⟨rfl, jump_of_pointer rfl rfl⟩⟩
  have hread := ReadsOnly.refl s
  have hlogs : Logs s (s.setPc a) [] := (List.append_nil _).symm
  exact ⟨s.setPc a, rfl, rfl, hlogs, rfl, hread.regsKept, rfl, rfl, hread.sameStored, hread.sameEnv⟩

/-! ### Calls (R253) -/

theorem sp_sub_one_sub_one (sp : Byte) : sp - 1#8 - 1#8 = sp - 2#8 := by bv_omega

theorem State.push_stored (s : State) (v : Byte) (b : Addr) :
    (s.push v).stored b = if b = stackAddr s.sp then some v else s.stored b := by
  have hram : (stackAddr s.sp).toNat < 0x8000 := (region_sysRam_iff _).mp (region_stackAddr s.sp)
  simp only [s.push_storesAt v b, hram, and_true]

theorem State.pushAddr_stored (s : State) (a b : Addr) :
    (s.pushAddr a).stored b = if b = stackAddr (s.sp - 1#8) then some (loByte a)
      else if b = stackAddr s.sp then some (hiByte a) else s.stored b := by
  rw [State.pushAddr_eq, State.push_stored, State.push_stored]
  rfl

theorem State.pushAddr_sp (s : State) (a : Addr) : (s.pushAddr a).sp = s.sp - 2#8 := sp_sub_one_sub_one s.sp

theorem State.pushAddr_logs (s : State) (a : Addr) :
    Logs s (s.pushAddr a) [.write (stackAddr s.sp) (hiByte a), .write (stackAddr (s.sp - 1#8)) (loByte a)] :=
  (s.push_logs (hiByte a)).trans ((s.push (hiByte a)).push_logs (loByte a))

theorem State.pushAddr_cyc (s : State) (a : Addr) : (s.pushAddr a).cyc = s.cyc + 2 := rfl

theorem State.pushAddr_sameEnv (s : State) (a : Addr) : SameEnv s (s.pushAddr a) :=
  (s.push_sameEnv (hiByte a)).trans ((s.push (hiByte a)).push_sameEnv (loByte a))

/-- Two pushes move SP and write memory; the other registers, P and RUN stay. -/
theorem State.pushAddr_frame (s : State) (a : Addr) :
    (s.pushAddr a).a = s.a ∧ (s.pushAddr a).x = s.x ∧ (s.pushAddr a).y = s.y ∧ (s.pushAddr a).p = s.p ∧
      (s.pushAddr a).run = s.run := ⟨rfl, rfl, rfl, rfl, rfl⟩

theorem exec_jsr (a : Addr) (s : State) :
    exec (.jsr a) s = .next ((s.dummyStack.pushAddr (s.pc - 1#16)).setPc a) := rfl

/-- Settles O47: the dummy read changes no byte and no register, and the pushes are those of the return address. -/
theorem jumpToSubroutine : Obligations.JumpToSubroutine := by
  intro a s
  refine ⟨rfl, ?_⟩
  intro ret
  have hdummy : ReadsOnly s s.dummyStack := s.afterRead_readsOnly (stackAddr s.sp)
  have hstored (b : Addr) := s.dummyStack.pushAddr_stored ret b
  have hsp := s.dummyStack.pushAddr_sp ret
  have hpushes := s.dummyStack.pushAddr_logs ret
  simp only [hdummy.stored, hdummy.sp] at hstored hsp hpushes
  have hlogs := (s.afterRead_logs (stackAddr s.sp)).trans hpushes
  have hcyc : (s.dummyStack.pushAddr ret).cyc = s.cyc + 1 + 2 := s.dummyStack.pushAddr_cyc ret
  have henv := hdummy.sameEnv.trans (s.dummyStack.pushAddr_sameEnv ret)
  obtain ⟨ha, hx, hy, hp, hrun⟩ := s.dummyStack.pushAddr_frame ret
  have hexec : exec (.jsr a) s = .next ((s.dummyStack.pushAddr ret).setPc a) := exec_jsr a s
  -- The state after the pushes is known by these facts alone.
  generalize s.dummyStack.pushAddr ret = pushed at *
  have hcosts : Costs (.jsr a) s (pushed.setPc a) 6 := by rw [Costs, State.setPc_cyc, hcyc]; rfl
  exact ⟨_, pushed.setPc a, hexec, rfl, hsp, hstored, s.stored_stackAddr s.sp, hlogs, hcosts, ha.trans hdummy.a,
    hx.trans hdummy.x, hy.trans hdummy.y, hp.trans hdummy.p, hrun.trans hdummy.run, henv⟩

/-! ### Returns (R254) -/

theorem sp_add_one_add_one (sp : Byte) : sp + 1#8 + 1#8 = sp + 2#8 := BitVec.add_assoc sp 1#8 1#8

theorem State.popAddr_sp (s : State) : s.popAddr.2.sp = s.sp + 2#8 := sp_add_one_add_one s.sp

theorem State.popAddr_cyc (s : State) : s.popAddr.2.cyc = s.cyc + 2 := rfl

/-- Popping an address moves SP up by two and otherwise only reads. -/
theorem State.popAddr_readsOnly (s : State) : ReadsOnly (s.setSp (s.sp + 2#8)) s.popAddr.2 := by
  rw [← s.popAddr_sp]
  rfl

/-- The two bytes that are popped: neither is a placeholder, since the stack page lies in SysRAM. -/
theorem State.popAddr_fst_eq_mkAddr (s : State) :
    ∃ lo hi, s.popAddr.1 = mkAddr hi lo ∧ s.stored (stackAddr (s.sp + 1#8)) = some lo ∧
      s.stored (stackAddr (s.sp + 2#8)) = some hi ∧
      Logs s s.popAddr.2 [.read (stackAddr (s.sp + 1#8)) lo, .read (stackAddr (s.sp + 2#8)) hi] := by
  have hhigh := s.pop.2.stored_pop_sp
  have hlogs := s.pop_logs.trans s.pop.2.pop_logs
  rw [State.pop_sp s.pop.2, State.pop_sp s, sp_add_one_add_one] at hhigh hlogs
  exact ⟨s.pop.1, s.pop.2.pop.1, rfl, s.stored_pop_sp, hhigh, hlogs⟩

theorem exec_rts (s : State) :
    exec .rts s = .next ((s.implied.dummyStack.popAddr.2.dummyRead s.implied.dummyStack.popAddr.1).setPc
      (s.implied.dummyStack.popAddr.1 + 1#16)) := rfl

/-- The dummy reads of an implied instruction and of the stack, before a pop (R189, R254). -/
theorem State.implied_dummyStack_logs (s : State) :
    Logs s s.implied.dummyStack [.read s.pc (s.busByte s.pc), .read (stackAddr s.sp) (s.busByte (stackAddr s.sp))] := by
  have hdummy := s.implied.afterRead_logs (stackAddr s.sp)
  rw [State.implied_eq, State.afterRead_busByte_sysRam (region_stackAddr s.sp)] at hdummy
  exact (s.afterRead_logs s.pc).trans hdummy

/-- Behind its dummy reads an RTS pops as it would without them: SP moves up by two, and otherwise there are only reads. -/
theorem State.dummyStack_popAddr_readsOnly (s : State) :
    ReadsOnly (s.setSp (s.sp + 2#8)) s.implied.dummyStack.popAddr.2 := by
  have hdummies : ReadsOnly (s.setSp (s.sp + 2#8)) (s.implied.dummyStack.setSp (s.sp + 2#8)) := rfl
  exact hdummies.trans s.implied.dummyStack.popAddr_readsOnly

/-- Settles O48: two dummy reads, the pop of the address, a dummy read there, and PC is the address plus 1. -/
theorem returnFromSubroutine : Obligations.ReturnFromSubroutine := by
  refine ⟨rfl, fun s => ?_⟩
  have hdummies : ReadsOnly s s.implied.dummyStack := (s.afterRead_readsOnly s.pc).trans (State.afterRead_readsOnly _ _)
  obtain ⟨lo, hi, hback, hlo, hhi, hpops⟩ := s.implied.dummyStack.popAddr_fst_eq_mkAddr
  rw [hdummies.sp] at hlo hhi hpops
  rw [hdummies.stored] at hlo hhi
  have hexec := exec_rts s
  rw [hback] at hexec
  have hpop := s.dummyStack_popAddr_readsOnly
  have hpopLogs := s.implied_dummyStack_logs.trans hpops
  have hcyc : s.implied.dummyStack.popAddr.2.cyc = s.cyc + 2 + 2 := s.implied.dummyStack.popAddr_cyc
  -- The state after the pops is known by these facts alone.
  generalize s.implied.dummyStack.popAddr.2 = popped at *
  have hread := hpop.trans (popped.afterRead_readsOnly (mkAddr hi lo))
  have hlogs := hpopLogs.trans (popped.afterRead_logs (mkAddr hi lo))
  have hlast : Returns s (mkAddr hi lo) (popped.busByte (mkAddr hi lo)) := hpop.returns_iff.mp (popped.busByte_returns _)
  have hcosts : Costs .rts s ((popped.afterRead (mkAddr hi lo)).setPc (mkAddr hi lo + 1#16)) 6 := by
    rw [Costs, State.setPc_cyc, State.afterRead_cyc, hcyc]; rfl
  exact ⟨_, _, lo, hi, _, _, hexec, hlo, hhi, rfl, hread.sp, s.busByte_returns s.pc, s.stored_stackAddr s.sp, hlast, hlogs,
    hcosts, hread.a, hread.x, hread.y, hread.p, hread.run, hread.sameStored, hread.sameEnv⟩

/-! ### Branches (R255 to R264) -/

theorem add_sext16 (pc : Addr) (off : Byte) : pc + sext16 off = BitVec.ofInt 16 ((pc.toNat : Int) + off.toInt) := by
  rw [BitVec.ofInt_add, BitVec.ofInt_natCast, BitVec.ofNat_toNat, BitVec.setWidth_eq]
  rfl

theorem crosses_iff (base target : Addr) : crosses base target = true ↔ hiByte target ≠ hiByte base := bne_iff_ne

theorem State.branch_within {s : State} {off : Byte} (h : crosses s.pc (s.pc + sext16 off) = false) :
    s.branch true off = (s.afterRead s.pc).setPc (s.pc + sext16 off) := by
  simp [State.branch, h]

theorem State.branch_across {s : State} {off : Byte} (h : crosses s.pc (s.pc + sext16 off) = true) :
    s.branch true off =
      ((s.afterRead s.pc).afterRead (uncorrected s.pc (s.pc + sext16 off))).setPc (s.pc + sext16 off) := by
  simp [State.branch, h]

/-- The branch sequence of R264, with one cycle for each dummy read. -/
theorem State.branch_branches (s : State) (cond : Bool) (off : Byte) :
    ∃ events, Branches cond off s (s.branch cond off) events ∧ Logs s (s.branch cond off) events ∧
      (s.branch cond off).cyc = s.cyc + events.length := by
  simp only [Branches, ← add_sext16]
  cases cond with
  | false => exact ⟨[], ⟨fun _ => ⟨rfl, rfl⟩, nofun⟩, (List.append_nil _).symm, rfl⟩
  | true =>
    cases hcross : crosses s.pc (s.pc + sext16 off) with
    | false =>
      have hpage : ¬hiByte (s.pc + sext16 off) ≠ hiByte s.pc := by simp [← crosses_iff, hcross]
      rw [State.branch_within hcross]
      exact ⟨_, ⟨nofun, fun _ => ⟨rfl, _, s.busByte_returns s.pc, fun _ => rfl, fun h => absurd h hpage⟩⟩,
        s.afterRead_logs s.pc, rfl⟩
    | true =>
      have hpage := (crosses_iff _ _).mp hcross
      rw [State.branch_across hcross]
      exact ⟨_, ⟨nofun, fun _ => ⟨rfl, _, s.busByte_returns s.pc, fun h => absurd h hpage,
          fun _ => ⟨_, s.afterRead_busByte_returns s.pc _, rfl⟩⟩⟩,
        s.read16_logs s.pc (uncorrected s.pc (s.pc + sext16 off)), rfl⟩

/-- An instruction of two bytes whose operation is the branch sequence follows the rule of a branch. -/
theorem branchRule_of_branch {i : Byte → Instr} {opcode : Byte} {cond : State → Bool}
    (hencode : ∀ off, encode (i off) = some [opcode, off]) (hfetched : ∀ off, fetchCount (i off) = 2)
    (hexec : ∀ off s, exec (i off) s = .next (s.branch (cond s) off)) : BranchRule i opcode cond := by
  intro off s
  obtain ⟨events, hbranches, hlogs, hcyc⟩ := s.branch_branches (cond s) off
  have hread := s.branch_readsOnly (cond s) off
  have hcosts : Costs (i off) s (s.branch (cond s) off) (2 + events.length) := by rw [Costs, hcyc, hfetched]; omega
  exact ⟨hencode off, _, events, hexec off s, hbranches, hlogs, hcosts, hread.regsKept, hread.p, hread.run,
    hread.sameStored, hread.sameEnv⟩

/-- Settles O50: each branch is the branch sequence with its condition. -/
theorem conditionalBranches : Obligations.ConditionalBranches := by
  refine ⟨?bpl, ?bmi, ?bvc, ?bvs, ?bcc, ?bcs, ?bne, ?beq, ?bra⟩ <;>
    exact branchRule_of_branch (fun _ => rfl) (fun _ => rfl) fun _ _ => rfl

end Sys2Proof.Machine
end

section
/-! A step at a boundary where nothing diverts the machine (R350): the fetch of one and of three bytes, a step that calls and a
step that returns (R253, R254), and the settlement of O49. -/

namespace Sys2Proof.Machine

/-! ### Quiet boundaries -/

/-- At a quiet boundary a step is the fetch and the operation of the instruction at PC. -/
theorem Quiet.step_eq_fetchExecute {s : State} (h : Quiet s) : step s = s.fetchExecute := by
  obtain ⟨hrun, hstop, hinputs, hnmi, hirq⟩ := h
  have hsample : s.sampleInputs = s := by simp [State.sampleInputs, hinputs]
  have hrunning : s.setRun .running = s := by rw [← hrun]; rfl
  have hpoll : s.poll = s := by simp [State.poll, hnmi, hirq]
  simp [step, hrun, State.turn, hstop, hsample, hrunning, hpoll]

/-- A boundary stays quiet while RUN, P and the outside world's requests are kept. -/
theorem Quiet.of_sameEnv {s t : State} (h : Quiet s) (hrun : t.run = s.run) (hp : t.p = s.p) (henv : SameEnv s t) :
    Quiet t := by
  obtain ⟨-, hinputs, hirq, hnmi, hstop⟩ := henv
  simpa only [Quiet, State.flagI, hrun, hp, hinputs, hirq, hnmi, hstop] using h

/-! ### The fetch of an instruction -/

theorem State.fetch8_fst_of_stored {s : State} {b : Byte} (h : s.stored s.pc = some b) : s.fetch8.1 = b :=
  State.busByte_of_stored h

theorem State.fetchExecute_of_fetchCount_one {s : State} {i : Instr}
    (hdecode : decodeBytes s.params.variant s.fetch8.1 s.fetch8.2.fetch8.1 s.fetch8.2.fetch8.2.fetch8.1 = i)
    (hfetched : fetchCount i = 1) : s.fetchExecute = exec i s.fetch8.2 := by
  simp only [State.fetchExecute, State.fetchInstr, hdecode, hfetched]

theorem State.fetchExecute_of_fetchCount_three {s : State} {i : Instr}
    (hdecode : decodeBytes s.params.variant s.fetch8.1 s.fetch8.2.fetch8.1 s.fetch8.2.fetch8.2.fetch8.1 = i)
    (hfetched : fetchCount i = 3) : s.fetchExecute = exec i s.fetch8.2.fetch8.2.fetch8.2 := by
  simp only [State.fetchExecute, State.fetchInstr, hdecode, hfetched]

/-- Three fetches in a row move PC on by three and otherwise only read. -/
theorem State.fetch8_thrice_readsOnly (s : State) :
    ReadsOnly (s.setPc (s.pc + 3#16)) s.fetch8.2.fetch8.2.fetch8.2 := by
  have hpc : s.pc + 3#16 = s.pc + 1#16 + 1#16 + 1#16 := by bv_omega
  rw [hpc]
  rfl

theorem State.fetch8_thrice_cyc (s : State) : s.fetch8.2.fetch8.2.fetch8.2.cyc = s.cyc + 3 := rfl

/-- JSR and RTS stand in the opcode map of every variant (R107, R290). -/
theorem decodeBytes_jsr (v : Variant) (lo hi : Byte) : decodeBytes v 0x20#8 lo hi = .jsr (mkAddr hi lo) := by
  obtain ⟨bitops, waiStp⟩ := v
  cases bitops <;> cases waiStp <;> rfl

theorem decodeBytes_rts (v : Variant) (b1 b2 : Byte) : decodeBytes v 0x60#8 b1 b2 = .rts := by
  obtain ⟨bitops, waiStp⟩ := v
  cases bitops <;> cases waiStp <;> rfl

/-! ### A call and a return as steps -/

theorem Quiet.step_eq_exec_jsr {s : State} {lo hi : Byte} (h : Quiet s) (hop : s.stored s.pc = some 0x20#8)
    (hlo : s.stored (s.pc + 1#16) = some lo) (hhi : s.stored (s.pc + 2#16) = some hi) :
    step s = exec (.jsr (mkAddr hi lo)) s.fetch8.2.fetch8.2.fetch8.2 := by
  have hpc : s.pc + 2#16 = s.pc + 1#16 + 1#16 := (BitVec.add_assoc s.pc 1#16 1#16).symm
  rw [hpc] at hhi
  have hlo' : s.fetch8.2.fetch8.1 = lo := State.fetch8_fst_of_stored (s := s.fetch8.2) hlo
  have hhi' : s.fetch8.2.fetch8.2.fetch8.1 = hi := State.fetch8_fst_of_stored (s := s.fetch8.2.fetch8.2) hhi
  rw [h.step_eq_fetchExecute]
  refine State.fetchExecute_of_fetchCount_three ?_ rfl
  rw [State.fetch8_fst_of_stored hop, hlo', hhi', decodeBytes_jsr]

theorem Quiet.step_eq_exec_rts {s : State} (h : Quiet s) (hop : s.stored s.pc = some 0x60#8) :
    step s = exec .rts s.fetch8.2 := by
  rw [h.step_eq_fetchExecute]
  refine State.fetchExecute_of_fetchCount_one ?_ rfl
  rw [State.fetch8_fst_of_stored hop, decodeBytes_rts]

/-- A step that executes a JSR: R253 with the three fetches before it. -/
theorem Quiet.step_jsr {s : State} {lo hi : Byte} (h : Quiet s) (hop : s.stored s.pc = some 0x20#8)
    (hlo : s.stored (s.pc + 1#16) = some lo) (hhi : s.stored (s.pc + 2#16) = some hi) :
    ∃ t, step s = .next t ∧ t.pc = mkAddr hi lo ∧ t.sp = s.sp - 2#8 ∧
      (∀ b, t.stored b = if b = stackAddr (s.sp - 1#8) then some (loByte (s.pc + 2#16))
        else if b = stackAddr s.sp then some (hiByte (s.pc + 2#16)) else s.stored b) ∧
      t.cyc = s.cyc + 6 ∧ t.a = s.a ∧ t.x = s.x ∧ t.y = s.y ∧ t.p = s.p ∧ Quiet t := by
  have hfetch := s.fetch8_thrice_readsOnly
  have hcyc := s.fetch8_thrice_cyc
  rw [h.step_eq_exec_jsr hop hlo hhi]
  generalize s.fetch8.2.fetch8.2.fetch8.2 = f at hfetch hcyc ⊢
  have hret : f.pc - 1#16 = s.pc + 2#16 := by rw [hfetch.pc, State.setPc_pc]; bv_omega
  obtain ⟨-, _, t, hexec, hpc, hsp, hstored, -, -, hcosts, ha, hx, hy, hp, hrun, henv⟩ := jumpToSubroutine (mkAddr hi lo) f
  simp only [hret, hfetch.sp, hfetch.stored, State.setPc_sp, State.setPc_stored] at hsp hstored
  have hcyc' : t.cyc = s.cyc + 6 := by
    have h3 : t.cyc + 3 = f.cyc + 6 := hcosts
    omega
  exact ⟨t, hexec, hpc, hsp, hstored, hcyc', ha.trans hfetch.a, hx.trans hfetch.x, hy.trans hfetch.y, hp.trans hfetch.p,
    h.of_sameEnv (hrun.trans hfetch.run) (hp.trans hfetch.p) (hfetch.sameEnv.trans henv)⟩

/-- A step that executes an RTS: R254 with the fetch before it. -/
theorem Quiet.step_rts {s : State} {lo hi : Byte} (h : Quiet s) (hop : s.stored s.pc = some 0x60#8)
    (hlo : s.stored (stackAddr (s.sp + 1#8)) = some lo) (hhi : s.stored (stackAddr (s.sp + 2#8)) = some hi) :
    ∃ t, step s = .next t ∧ t.pc = mkAddr hi lo + 1#16 ∧ t.sp = s.sp + 2#8 ∧ SameStored s t ∧
      t.cyc = s.cyc + 6 ∧ t.a = s.a ∧ t.x = s.x ∧ t.y = s.y ∧ t.p = s.p ∧ Quiet t := by
  have hfetch := s.fetch8_readsOnly
  have hcyc : s.fetch8.2.cyc = s.cyc + 1 := rfl
  rw [h.step_eq_exec_rts hop]
  generalize s.fetch8.2 = f at hfetch hcyc ⊢
  obtain ⟨-, hreturn⟩ := returnFromSubroutine
  obtain ⟨_, _, lo', hi', _, t, hexec, hlo', hhi', hpc, hsp, -, -, -, -, hcosts, ha, hx, hy, hp, hrun, hsame, henv⟩ :=
    hreturn f
  simp only [hfetch.sp, hfetch.stored, State.setPc_sp, State.setPc_stored] at hlo' hhi' hsp
  obtain rfl : lo = lo' := Option.some.inj (hlo.symm.trans hlo')
  obtain rfl : hi = hi' := Option.some.inj (hhi.symm.trans hhi')
  have hcyc' : t.cyc = s.cyc + 6 := by
    have h1 : t.cyc + 1 = f.cyc + 6 := hcosts
    omega
  exact ⟨t, hexec, hpc, hsp, hfetch.sameStored.trans hsame, hcyc', ha.trans hfetch.a, hx.trans hfetch.x, hy.trans hfetch.y,
    hp.trans hfetch.p, h.of_sameEnv (hrun.trans hfetch.run) (hp.trans hfetch.p) (hfetch.sameEnv.trans henv)⟩

/-! ### The round trip (R265) -/

theorem mkAddr_hiByte_loByte (a : Addr) : mkAddr (hiByte a) (loByte a) = a :=
  (BitVec.extractLsb'_append_extractLsb'_eq_extractLsb' rfl).trans BitVec.extractLsb'_eq_self

theorem stackAddr_ne_pred (sp : Byte) : stackAddr sp ≠ stackAddr (sp - 1#8) := by
  rw [Ne, stackAddr_inj]
  bv_omega

/-- Settles O49: the RTS pops the two bytes that the JSR has pushed, so that PC is the address of the JSR's third byte plus 1. -/
theorem subroutineRoundTrip : Obligations.SubroutineRoundTrip := by
  intro s t lo hi hquiet hop hlo hhi hcall hrts
  obtain ⟨t', hcall', hpc, hsp, hpushed, hcyc, ha, hx, hy, hp, hquiet'⟩ := hquiet.step_jsr hop hlo hhi
  obtain rfl : t = t' := Host.Outcome.next.inj (hcall.symm.trans hcall')
  have hlow : t.stored (stackAddr (s.sp - 1#8)) = some (loByte (s.pc + 2#16)) := by rw [hpushed, if_pos rfl]
  have hhigh : t.stored (stackAddr s.sp) = some (hiByte (s.pc + 2#16)) := by
    rw [hpushed, if_neg (stackAddr_ne_pred s.sp), if_pos rfl]
  have hfirst : t.sp + 1#8 = s.sp - 1#8 := by rw [hsp]; bv_omega
  have hsecond : t.sp + 2#8 = s.sp := by rw [hsp]; exact BitVec.sub_add_cancel s.sp 2#8
  have hback : mkAddr (hiByte (s.pc + 2#16)) (loByte (s.pc + 2#16)) + 1#16 = s.pc + 3#16 := by
    rw [mkAddr_hiByte_loByte]
    exact BitVec.add_assoc s.pc 2#16 1#16
  obtain ⟨u, hreturn, hupc, husp, hsame, hucyc, hua, hux, huy, hup, huquiet⟩ :=
    hquiet'.step_rts (hpc ▸ hrts) (hfirst ▸ hlow) (hsecond ▸ hhigh)
  have hframe (b : Addr) (hne : b ≠ stackAddr s.sp) (hne' : b ≠ stackAddr (s.sp - 1#8)) : u.stored b = s.stored b := by
    rw [hsame, hpushed, if_neg hne', if_neg hne]
  exact ⟨hpc, u, hreturn, hupc.trans hback, husp.trans hsecond, hua.trans ha, hux.trans hx, huy.trans hy, hup.trans hp,
    by omega, huquiet, (hsame _).trans hhigh, (hsame _).trans hlow, hframe⟩

end Sys2Proof.Machine
end

section
/-! Exception entry and return (R270, R271, R314): what entering through a vector and returning from the stack do, and the
settlement of O51 and O52. -/

namespace Sys2Proof.Machine

open Sys2Proof.Rules

/-! ### What an entry saves -/

theorem sp_sub_two_sub_one (sp : Byte) : sp - 2#8 - 1#8 = sp - 3#8 := by bv_omega

/-- P as an entry leaves it: I is set, and D is cleared where the parameter says so (R270, R314). -/
def entryStatus (clearsD : Bool) (p : Byte) : Byte :=
  if clearsD then putBit (putBit p 2 true) 3 false else putBit p 2 true

theorem entryStatus_getLsbD (clearsD : Bool) (p : Byte) (k : Nat) (hk : k < 8) :
    (entryStatus clearsD p).getLsbD k =
      if k = 3 ∧ clearsD = true then false else if k = 2 then true else p.getLsbD k := by
  cases clearsD <;> simp [entryStatus, putBit_getLsbD _ _ _ _ hk]

/-- The part of an entry before the vector is read: PC and P are pushed, and then P is written. -/
def State.saveForEntry (s : State) (bSet : Bool) : State :=
  ((s.pushAddr s.pc).push (pushedStatus bSet s.p)).setP (entryStatus s.params.intClearsD s.p)

theorem State.takeException_eq (s : State) (vector : Addr) (bSet : Bool) :
    s.takeException vector bSet =
      ((s.saveForEntry bSet).read16 vector (vector + 1#16)).2.setPc
        ((s.saveForEntry bSet).read16 vector (vector + 1#16)).1 := by
  have hp : ((s.pushAddr s.pc).push (pushedStatus bSet s.p)).p = s.p := by
    simp only [State.pushAddr_eq, State.push_eq, State.setSp_p, State.memWrite_p]
  simp only [State.takeException, State.saveForEntry]
  generalize (s.pushAddr s.pc).push (pushedStatus bSet s.p) = pushed at *
  cases hclears : s.params.intClearsD <;> simp only [entryStatus, ← hp] <;> rfl

theorem State.saveForEntry_sp (s : State) (bSet : Bool) : (s.saveForEntry bSet).sp = s.sp - 3#8 := by
  rw [← sp_sub_two_sub_one, ← s.pushAddr_sp s.pc]
  rfl

theorem State.saveForEntry_p (s : State) (bSet : Bool) :
    (s.saveForEntry bSet).p = entryStatus s.params.intClearsD s.p := rfl

theorem State.saveForEntry_cyc (s : State) (bSet : Bool) : (s.saveForEntry bSet).cyc = s.cyc + 3 := rfl

theorem State.saveForEntry_frame (s : State) (bSet : Bool) :
    (s.saveForEntry bSet).a = s.a ∧ (s.saveForEntry bSet).x = s.x ∧ (s.saveForEntry bSet).y = s.y ∧
      (s.saveForEntry bSet).run = s.run := by
  simp [State.saveForEntry]

theorem State.saveForEntry_sameEnv (s : State) (bSet : Bool) : SameEnv s (s.saveForEntry bSet) :=
  (s.pushAddr_sameEnv s.pc).trans ((s.pushAddr s.pc).push_sameEnv (pushedStatus bSet s.p))

theorem State.saveForEntry_stored (s : State) (bSet : Bool) (b : Addr) :
    (s.saveForEntry bSet).stored b =
      if b = stackAddr (s.sp - 2#8) then some (pushedStatus bSet s.p)
      else if b = stackAddr (s.sp - 1#8) then some (loByte s.pc)
      else if b = stackAddr s.sp then some (hiByte s.pc)
      else s.stored b := by
  rw [State.saveForEntry, State.setP_stored, State.push_stored, State.pushAddr_stored, State.pushAddr_sp]

theorem State.saveForEntry_logs (s : State) (bSet : Bool) :
    Logs s (s.saveForEntry bSet) [.write (stackAddr s.sp) (hiByte s.pc), .write (stackAddr (s.sp - 1#8)) (loByte s.pc),
      .write (stackAddr (s.sp - 2#8)) (pushedStatus bSet s.p)] := by
  have hlast := (s.pushAddr s.pc).push_logs (pushedStatus bSet s.p)
  rw [State.pushAddr_sp] at hlast
  exact (s.pushAddr_logs s.pc).trans hlast

/-! ### The vectors -/

/-- A read of ROM0 returns a stored byte. -/
theorem State.stored_of_rom0 (s : State) {a : Addr} (ha : 0xE000 ≤ a.toNat) : s.stored a = some (s.busByte a) := by
  rw [State.busByte_of_stored (State.stored_rom0 ha)]
  exact State.stored_rom0 ha

/-- No write and no read changes what a read of ROM0 returns. -/
theorem State.busByte_eq_of_params_eq {s t : State} {a : Addr} (hp : t.params = s.params) (ha : 0xE000 ≤ a.toNat) :
    t.busByte a = s.busByte a :=
  State.busByte_of_stored ((State.stored_eq_of_params_eq hp (by omega)).trans (s.stored_of_rom0 ha))

/-- Entry through a vector in ROM0: the rule BRK and the interrupts share (R270, R314). -/
theorem State.takeException_entersVector (s : State) {vector : Addr} (bSet : Bool) (hlow : 0xE000 ≤ vector.toNat)
    (hhigh : 0xE000 ≤ (vector + 1#16).toNat) :
    (s.takeException vector bSet).pc = mkAddr (s.busByte (vector + 1#16)) (s.busByte vector) ∧
      ReadsOnly ((s.saveForEntry bSet).setPc (s.takeException vector bSet).pc) (s.takeException vector bSet) ∧
      Logs (s.saveForEntry bSet) (s.takeException vector bSet)
        [.read vector (s.busByte vector), .read (vector + 1#16) (s.busByte (vector + 1#16))] ∧
      (s.takeException vector bSet).cyc = s.cyc + 5 := by
  obtain ⟨hparams, -⟩ := s.saveForEntry_sameEnv bSet
  have hcyc := s.saveForEntry_cyc bSet
  rw [State.takeException_eq]
  -- The state behind the pushes is known by these facts alone.
  generalize s.saveForEntry bSet = saved at *
  have hlogs := saved.read16_logs vector (vector + 1#16)
  have hbytes := saved.read16_fst vector (vector + 1#16)
  rw [State.busByte_eq_of_params_eq hparams hlow,
    State.busByte_eq_of_params_eq (s := s) ((saved.afterRead_params vector).trans hparams) hhigh] at hlogs hbytes
  exact ⟨hbytes, rfl, hlogs, congrArg (· + 2) hcyc⟩

theorem State.takeException_flags (s : State) (vector : Addr) (bSet : Bool) :
    (s.takeException vector bSet).flagI = true ∧
      (s.params.intClearsD = true → (s.takeException vector bSet).flagD = false) ∧
      StatusKept (if s.params.intClearsD then [2, 3] else [2]) s (s.takeException vector bSet) := by
  have hp : (s.takeException vector bSet).p = entryStatus s.params.intClearsD s.p := by
    rw [State.takeException_eq, State.setPc_p, (State.read16_readsOnly _ vector (vector + 1#16)).p, State.saveForEntry_p]
  generalize s.takeException vector bSet = t at *
  refine ⟨?setsI, fun hclears => ?clearsD, fun k hk hlisted => ?kept⟩
  case setsI => rw [State.flagI, hp, entryStatus_getLsbD _ _ _ (by decide), if_neg (by simp), if_pos rfl]
  case clearsD => rw [State.flagD, hp, entryStatus_getLsbD _ _ _ (by decide), if_pos ⟨rfl, hclears⟩]
  case kept =>
    rw [hp, entryStatus_getLsbD _ _ _ hk]
    cases hclears : s.params.intClearsD <;> simp_all

/-! ### BRK (R270) -/

theorem exec_brk (s : State) : exec .brk s = .next (s.fetch8.2.takeException 0xFFFE#16 true) := rfl

/-- Settles O51: the fetch of the signature byte moves PC to the address that is pushed, and the entry through `$FFFE` with
B = 1 follows. -/
theorem breakSequence : Obligations.BreakSequence := by
  refine ⟨rfl, fun s => ?_⟩
  have hfetch := s.fetch8_readsOnly
  have hrom (a : Addr) (ha : 0xE000 ≤ a.toNat) : s.stored a = some (s.fetch8.2.busByte a) :=
    (hfetch.stored a).symm.trans (s.fetch8.2.stored_of_rom0 ha)
  have hfetchLogs : Logs s s.fetch8.2 [.read s.pc s.fetch8.1] := s.afterRead_logs s.pc
  have hfetchCyc : s.fetch8.2.cyc = s.cyc + 1 := rfl
  rw [exec_brk]
  generalize s.fetch8.2 = f at *
  obtain ⟨hpc, hread, hvector, hcyc⟩ := f.takeException_entersVector (vector := 0xFFFE#16) true (by decide) (by decide)
  obtain ⟨hsetsI, hclearsD, hkept⟩ := f.takeException_flags 0xFFFE#16 true
  obtain ⟨ha, hx, hy, hrun⟩ := f.saveForEntry_frame true
  have hsp := f.saveForEntry_sp true
  have hstored := f.saveForEntry_stored true
  have hpushes := f.saveForEntry_logs true
  have henv := f.saveForEntry_sameEnv true
  simp only [hfetch.sp, hfetch.pc, hfetch.p, hfetch.params, hfetch.stored, State.setPc_sp, State.setPc_pc, State.setPc_p,
    State.setPc_params, State.setPc_stored] at hsp hstored hpushes hclearsD hkept
  have hlogs := hfetchLogs.trans (hpushes.trans hvector)
  have hkept' : StatusKept (if s.params.intClearsD then [2, 3] else [2]) s (f.takeException 0xFFFE#16 true) := by
    intro k hk hlisted
    rw [hkept k hk hlisted, hfetch.p, State.setPc_p]
  generalize f.takeException 0xFFFE#16 true = t at *
  have hcosts : Costs .brk s t 7 := by
    have hfetched : t.cyc + 1 = s.cyc + 7 := by omega
    exact hfetched
  exact ⟨s.fetch8.1, _, _, t, rfl, s.busByte_returns s.pc, hrom _ (by decide), hrom _ (by decide), hpc,
    hread.sp.trans hsp, (hread.a.trans ha).trans hfetch.a, (hread.x.trans hx).trans hfetch.x, (hread.y.trans hy).trans hfetch.y,
    (hread.run.trans hrun).trans hfetch.run, (hfetch.sameEnv.trans henv).trans hread.sameEnv, hsetsI, hclearsD,
    hkept', fun b => (hread.stored b).trans (hstored b), hlogs, hcosts⟩

/-! ### RTI (R271) -/

theorem sp_add_one_add_two (sp : Byte) : sp + 1#8 + 2#8 = sp + 3#8 := BitVec.add_assoc sp 1#8 2#8

/-- A return from an exception pops P, then PC low, then PC high, and otherwise only reads. -/
theorem State.returnFromException_pops (s : State) :
    ∃ p lo hi, s.stored (stackAddr (s.sp + 1#8)) = some p ∧ s.stored (stackAddr (s.sp + 2#8)) = some lo ∧
      s.stored (stackAddr (s.sp + 3#8)) = some hi ∧
      ReadsOnly (((s.setSp (s.sp + 3#8)).setP (p ||| 0x20#8)).setPc (mkAddr hi lo)) s.returnFromException ∧
      Logs s s.returnFromException [.read (stackAddr (s.sp + 1#8)) p, .read (stackAddr (s.sp + 2#8)) lo,
        .read (stackAddr (s.sp + 3#8)) hi] ∧
      s.returnFromException.cyc = s.cyc + 3 := by
  obtain ⟨lo, hi, htarget, hlo, hhi, hlogs⟩ := (s.pop.2.setP (restoredStatus s.pop.1)).popAddr_fst_eq_mkAddr
  simp only [State.setP_sp, State.pop_sp, sp_add_one_add_one, sp_add_one_add_two, State.setP_stored,
    s.pop_readsOnly.stored, State.setSp_stored] at hlo hhi hlogs
  have hreturn : s.returnFromException = (s.pop.2.setP (restoredStatus s.pop.1)).popAddr.2.setPc (mkAddr hi lo) := by
    rw [← htarget]
    rfl
  have hread : ReadsOnly (((s.setSp (s.sp + 3#8)).setP (s.pop.1 ||| 0x20#8)).setPc (mkAddr hi lo)) s.returnFromException := by
    rw [hreturn, ← sp_add_one_add_two, ← sp_add_one_add_one (s.sp + 1#8)]
    rfl
  have hpops := s.pop_logs.trans hlogs
  exact ⟨s.pop.1, lo, hi, s.stored_pop_sp, hlo, hhi, hread, hpops, rfl⟩

theorem exec_rti (s : State) : exec .rti s = .next s.implied.dummyStack.returnFromException := rfl

/-- Settles O52: two dummy reads, which change no register and no byte, and then the return. -/
theorem returnFromInterrupt : Obligations.ReturnFromInterrupt := by
  refine ⟨rfl, fun s => ?_⟩
  have hdummies : ReadsOnly s s.implied.dummyStack := (s.afterRead_readsOnly s.pc).trans (State.afterRead_readsOnly _ _)
  have hdummyLogs := s.implied_dummyStack_logs
  have hdummyCyc : s.implied.dummyStack.cyc = s.cyc + 2 := rfl
  rw [exec_rti]
  generalize s.implied.dummyStack = d at *
  obtain ⟨p, lo, hi, hp, hlo, hhi, hread, hpops, hcyc⟩ := d.returnFromException_pops
  rw [hdummies.sp] at hp hlo hhi hpops hread
  rw [hdummies.stored] at hp hlo hhi
  have hlogs := hdummyLogs.trans hpops
  have hcosts : Costs .rti s d.returnFromException 6 := by
    rw [Costs, hcyc, hdummyCyc]
    rfl
  exact ⟨_, _, p, lo, hi, _, rfl, hp, hlo, hhi, hread.p, hread.pc, hread.sp, s.busByte_returns s.pc, s.stored_stackAddr s.sp,
    hlogs, hcosts, hread.a.trans hdummies.a, hread.x.trans hdummies.x, hread.y.trans hdummies.y,
    hread.run.trans hdummies.run, hdummies.sameStored.trans hread.sameStored, hdummies.sameEnv.trans hread.sameEnv⟩

end Sys2Proof.Machine
end

section
/-! The no-operations (R272 to R278): what they leave alone, which opcodes each class has, and the settlement of O54. -/

namespace Sys2Proof

theorem contains_iff_toNat_mem (opcodes : List Byte) (op : Byte) :
    opcodes.contains op = true ↔ op.toNat ∈ opcodes.map BitVec.toNat :=
  List.contains_iff_mem.trans (List.mem_map_of_injective BitVec.toNat_injective).symm

theorem lowNibble_toNat (op : Byte) : (op.extractLsb' 0 4).toNat = op.toNat % 16 := BitVec.extractLsb'_toNat 0 4 op

/-- The opcodes of the one-byte no-operations: two columns of the table, less the two opcodes that WAI and STP take, and two
more columns where the bit instructions are off (R273, R290). -/
theorem isNop1_iff (v : Variant) (op : Byte) :
    isNop1 v op = true ↔ op.toNat % 16 = 0x3 ∨
      (op.toNat % 16 = 0xB ∧ ¬ (v.waiStp = .wdc ∧ (op = 0xCB#8 ∨ op = 0xDB#8))) ∨
      (v.bitops = .nop ∧ (op.toNat % 16 = 0x7 ∨ op.toNat % 16 = 0xF)) := by
  rw [isNop1, lowNibble_toNat]
  split
  case h_1 hcolumn | h_3 hcolumn | h_4 hcolumn => simp [hcolumn]
  case h_2 hcolumn => simp [hcolumn, imp_iff_not_or]
  case h_5 => simp_all

end Sys2Proof

namespace Sys2Proof.Machine

open Sys2Proof.Rules

theorem ReadsOnly.nothingChanged {s t : State} (h : ReadsOnly s t) : NothingChanged s t :=
  ⟨h.regsKept, h.p, h.pc, h.run, h.sameStored, h.sameEnv⟩

theorem State.idle_logs (s : State) (n : Nat) : Logs s (s.idle n) [.idle n] := s.idle_busLog n

/-- A read of the zero page returns a stored byte and never a placeholder: the page lies in SysRAM. -/
theorem State.stored_zeroPage (s : State) (d : Byte) : s.stored (zeroPage d) = some (s.busByte (zeroPage d)) := by
  have hregion : region (zeroPage d) = .sysRam := region_zeroPage d
  rw [State.stored_sysRam ((region_sysRam_iff _).mp hregion), State.busByte_sysRam hregion]

/-- Two reads of the zero page, of which the first does not change what the second returns. -/
theorem State.afterRead_zeroPage_logs (s : State) (d d' : Byte) :
    Logs s ((s.afterRead (zeroPage d)).afterRead (zeroPage d'))
      [.read (zeroPage d) (s.busByte (zeroPage d)), .read (zeroPage d') (s.busByte (zeroPage d'))] := by
  have hsecond := (s.afterRead (zeroPage d)).afterRead_logs (zeroPage d')
  rw [State.afterRead_busByte_sysRam (region_zeroPage d')] at hsecond
  exact (s.afterRead_logs (zeroPage d)).trans hsecond

/-- Settles O54: no class does more than read or let cycles pass. -/
theorem noOperations : Obligations.NoOperations := by
  intro s op d a
  have hnone : Logs s s [] := (List.append_nil _).symm
  have hsame := (ReadsOnly.refl s).nothingChanged
  refine ⟨⟨rfl, ?nop⟩, ⟨rfl, ?nop1⟩, ⟨rfl, ?nopImm⟩, ⟨rfl, ?nopZp⟩, ⟨rfl, ?nopZpx⟩, ⟨rfl, ?nopAbs⟩, ⟨rfl, ?nopAbs8⟩⟩
  case nop =>
    exact ⟨_, _, rfl, (s.afterRead_readsOnly s.pc).nothingChanged, s.busByte_returns s.pc, s.afterRead_logs s.pc, rfl⟩
  case nop1 => exact ⟨s, rfl, hsame, hnone, rfl, fun v => isNop1_iff v op⟩
  case nopImm => exact ⟨s, rfl, hsame, hnone, rfl, contains_iff_toNat_mem _ op⟩
  case nopZp =>
    exact ⟨_, _, rfl, (s.afterRead_readsOnly _).nothingChanged, s.stored_zeroPage d, s.afterRead_logs _, rfl⟩
  case nopZpx =>
    have hread := (s.afterRead_readsOnly (zeroPage d)).trans (State.afterRead_readsOnly _ (zeroPage (d + s.x)))
    exact ⟨_, _, _, rfl, hread.nothingChanged, s.stored_zeroPage d, s.stored_zeroPage (d + s.x),
      s.afterRead_zeroPage_logs d (d + s.x), rfl, contains_iff_toNat_mem _ op⟩
  case nopAbs =>
    exact ⟨_, _, rfl, (s.afterRead_readsOnly a).nothingChanged, s.busByte_returns a, s.afterRead_logs a, rfl,
      contains_iff_toNat_mem _ op⟩
  case nopAbs8 => exact ⟨_, rfl, (s.idle_readsOnly 5).nothingChanged, s.idle_logs 5, rfl⟩

end Sys2Proof.Machine
end

section
/-! The memory bit instructions (R291, R293): their opcodes, the bit they write, the read-modify-write of a zero-page byte, and
the settlement of O56. -/

namespace Sys2Proof

/-- The number of the bit stands in the high digit of the opcode (R291 to R294). -/
theorem bitOpcode_eq_ofNat (base : Nat) (n : BitVec 3) :
    bitOpcode (BitVec.ofNat 8 base) n = BitVec.ofNat 8 (base + 0x10 * n.toNat) := by
  apply BitVec.eq_of_toNat_eq
  have hn := n.isLt
  have hdigit : (n.zeroExtend 8 <<< 4).toNat = 0x10 * n.toNat := by
    rw [BitVec.toNat_shiftLeft, BitVec.toNat_setWidth, Nat.shiftLeft_eq]
    omega
  rw [bitOpcode, BitVec.toNat_add, BitVec.toNat_ofNat, BitVec.toNat_ofNat, hdigit, Nat.mod_add_mod]

end Sys2Proof

namespace Sys2Proof.Machine

open Sys2Proof.Rules

/-- The zero page lies in SysRAM, so that the dummy read of the rmw class returns the byte that was read before it. -/
theorem modifyMem_zp_logs (d : Byte) (f : Byte → Byte) (s : State) :
    Logs s (modifyMem (.zp d) f s).2 [.read (zeroPage d) (s.busByte (zeroPage d)),
      .read (zeroPage d) (s.busByte (zeroPage d)), .write (zeroPage d) (f (s.busByte (zeroPage d)))] :=
  (s.afterRead_zeroPage_logs d d).trans (State.memWrite_logs _ _ _)

/-- RMBn or SMBn: the instruction that makes bit `n` of a zero-page byte `value`. -/
def bitWrite (value : Bool) (n : BitVec 3) (d : Byte) : Instr := if value then .smb n d else .rmb n d

theorem encode_bitWrite (value : Bool) (n : BitVec 3) (d : Byte) :
    encode (bitWrite value n d) = some [BitVec.ofNat 8 ((if value then 0x87 else 0x07) + 0x10 * n.toNat), d] := by
  rw [← bitOpcode_eq_ofNat]
  cases value <;> rfl

theorem fetchCount_bitWrite (value : Bool) (n : BitVec 3) (d : Byte) : fetchCount (bitWrite value n d) = 2 := by
  cases value <;> rfl

theorem exec_bitWrite (value : Bool) (n : BitVec 3) (d : Byte) (s : State) :
    exec (bitWrite value n d) s = .next (modifyMem (.zp d) (putBit · n.toNat value) s).2 := by
  cases value <;> rfl

/-- Settles O56: both are the read-modify-write of one bit of a zero-page byte, and write nothing else. -/
theorem resetAndSetMemoryBit : Obligations.ResetAndSetMemoryBit := by
  intro n d s value
  have hcosts : Costs (bitWrite value n d) s (modifyMem (.zp d) (putBit · n.toNat value) s).2 5 := by
    rw [Costs, fetchCount_bitWrite, modifyMem_cyc]
    rfl
  exact ⟨encode_bitWrite value n d, _, _, _, exec_bitWrite value n d s, s.stored_zeroPage d,
    fun k hk => putBit_getLsbD _ n.toNat k value hk, modifyMem_storesAt (.zp d) _ s, modifyMem_zp_logs d _ s, hcosts,
    modifyMem_frame (.zp d) _ s⟩

end Sys2Proof.Machine
end

section
/-! What every instruction and every step is made of, said once: a relation between two runs that the named operations on the
state keep is kept by every instruction and by every step outside `Boot`. A property of one run is such a relation of a state
with itself; so one split over the instructions gives the totality of the machine, what it keeps, what its log explains and what
it never reads. -/

namespace Sys2Proof.Machine

open Sys2Proof.Rules

/-! ### The poll (R313) -/

theorem State.poll_of_nmi {s : State} (hnmi : s.nmiPending = true) :
    s.poll = State.interruptEntry { s with nmiPending := false } nmiVector := if_pos hnmi

theorem State.poll_of_irq {s : State} (hnmi : s.nmiPending = false) (hirq : (s.irqLine && !s.flagI) = true) :
    s.poll = s.interruptEntry irqVector := by
  rw [State.poll, if_neg (by simp [hnmi]), if_pos hirq]

theorem State.poll_of_none {s : State} (hnmi : s.nmiPending = false) (hirq : (s.irqLine && !s.flagI) = false) :
    s.poll = s := by
  rw [State.poll, if_neg (by simp [hnmi]), if_neg (by simp [hirq])]

/-! ### Relations that the operations keep -/

/-- The bits of P that an operation writes one at a time (R26): all but the stored bits 4 and 5. -/
def writtenBits : List Nat := [0, 1, 2, 3, 6, 7]

/-- The bits of P on which what an instruction does can depend: D, B and bit 5 are not among them (R27, R28, R34). -/
def testedBits : List Nat := [0, 1, 2, 6, 7]

/-- The relation `R` of two states, and `Q` of their status bytes, is kept by the operations on the state, and related states
answer alike: registers, RUN, the requests, the parameters, the bytes that are read and the tested bits of P agree. SysRAM, CYC,
LOG and the count of draws are compared by `R` alone. -/
structure Simulation (R : State → State → Prop) (Q : Byte → Byte → Prop) : Prop where
  regs {s s' : State} : R s s' → RegsKept s s'
  pc {s s' : State} : R s s' → s'.pc = s.pc
  run {s s' : State} : R s s' → s'.run = s.run
  env {s s' : State} : R s s' → SameEnv s s'
  status {s s' : State} : R s s' → Q s.p s'.p
  busByte {s s' : State} : R s s' → ∀ a, s'.busByte a = s.busByte a
  afterRead {s s' : State} : R s s' → ∀ a, R (s.afterRead a) (s'.afterRead a)
  memWrite {s s' : State} : R s s' → ∀ a v, R (s.memWrite a v) (s'.memWrite a v)
  idle {s s' : State} : R s s' → ∀ n, R (s.idle n) (s'.idle n)
  setA {s s' : State} : R s s' → ∀ v, R (s.setA v) (s'.setA v)
  setX {s s' : State} : R s s' → ∀ v, R (s.setX v) (s'.setX v)
  setY {s s' : State} : R s s' → ∀ v, R (s.setY v) (s'.setY v)
  setSp {s s' : State} : R s s' → ∀ v, R (s.setSp v) (s'.setSp v)
  setPc {s s' : State} : R s s' → ∀ v, R (s.setPc v) (s'.setPc v)
  setRun {s s' : State} : R s s' → ∀ v, R (s.setRun v) (s'.setRun v)
  setP {s s' : State} {p p' : Byte} : R s s' → Q p p' → R (s.setP p) (s'.setP p')
  clearNmi {s s' : State} : R s s' → R { s with nmiPending := false } { s' with nmiPending := false }
  sampleInputs {s s' : State} : R s s' → R s.sampleInputs s'.sampleInputs
  putBit {p p' : Byte} : Q p p' → ∀ k ∈ writtenBits, ∀ b, Q (putBit p k b) (putBit p' k b)
  restored (v : Byte) : Q (restoredStatus v) (restoredStatus v)
  tested {p p' : Byte} : Q p p' → ∀ k ∈ testedBits, p'.getLsbD k = p.getLsbD k

/-- Status bytes that are related are pushed as the same byte. PHP and the entry through a vector push P. -/
def PushedAlike (Q : Byte → Byte → Prop) : Prop := ∀ {p p' : Byte}, Q p p' → ∀ b, pushedStatus b p' = pushedStatus b p

/-- Two operations that return a value return the same, and leave related states. -/
def Alike {α : Type} (R : State → State → Prop) (r r' : α × State) : Prop := r'.1 = r.1 ∧ R r.2 r'.2

namespace Simulation

section

variable {R : State → State → Prop} {Q : Byte → Byte → Prop} (sim : Simulation R Q) {s s' : State} (h : R s s')

include sim

/-! ### P -/

theorem putZN {p p' : Byte} (hq : Q p p') (v : Byte) : Q (putZN p v) (putZN p' v) :=
  sim.putBit (sim.putBit hq 1 (by decide) _) 7 (by decide) _

theorem putAlu {p p' : Byte} (hq : Q p p') (r : AluResult) : Q (putAlu p r) (putAlu p' r) :=
  sim.putBit (sim.putBit (sim.putBit (sim.putBit hq 0 (by decide) _) 6 (by decide) _) 1 (by decide) _) 7 (by decide) _

theorem putCompare {p p' : Byte} (hq : Q p p') (reg m : Byte) : Q (putCompare p reg m) (putCompare p' reg m) :=
  sim.putZN (sim.putBit hq 0 (by decide) _) _

theorem putShift {p p' : Byte} (hq : Q p p') (r : ShiftResult) : Q (putShift p r) (putShift p' r) :=
  sim.putZN (sim.putBit hq 0 (by decide) _) _

theorem putTest {p p' : Byte} (hq : Q p p') (a m : Byte) : Q (putTest p a m) (putTest p' a m) :=
  sim.putBit hq 1 (by decide) _

theorem putBitTest {p p' : Byte} (hq : Q p p') (a m : Byte) : Q (putBitTest p a m) (putBitTest p' a m) :=
  sim.putBit (sim.putBit (sim.putTest hq a m) 6 (by decide) _) 7 (by decide) _

include h

theorem setZN (v : Byte) : R (s.setZN v) (s'.setZN v) := sim.setP h (sim.putZN (sim.status h) v)

theorem putFlag (k : Nat) (hk : k ∈ writtenBits) (b : Bool) : R (s.putFlag k b) (s'.putFlag k b) :=
  sim.setP h (sim.putBit (sim.status h) k hk b)

theorem flagC : s'.flagC = s.flagC := sim.tested (sim.status h) 0 (by decide)
theorem flagZ : s'.flagZ = s.flagZ := sim.tested (sim.status h) 1 (by decide)
theorem flagI : s'.flagI = s.flagI := sim.tested (sim.status h) 2 (by decide)
theorem flagV : s'.flagV = s.flagV := sim.tested (sim.status h) 6 (by decide)
theorem flagN : s'.flagN = s.flagN := sim.tested (sim.status h) 7 (by decide)

/-! ### The bus and the stack -/

theorem memRead (a : Addr) : Alike R (s.memRead a) (s'.memRead a) := ⟨sim.busByte h a, sim.afterRead h a⟩

theorem implied : R s.implied s'.implied := by
  simp only [State.implied_eq, sim.pc h]
  exact sim.afterRead h s.pc

theorem dummyStack : R s.dummyStack s'.dummyStack := by
  obtain ⟨-, -, -, hsp⟩ := sim.regs h
  simp only [State.dummyStack_eq, hsp]
  exact sim.afterRead h (stackAddr s.sp)

theorem fetch8 : Alike R s.fetch8 s'.fetch8 := by
  simp only [Alike, State.fetch8_fst, State.fetch8_snd, sim.pc h]
  exact ⟨sim.busByte h s.pc, sim.setPc (sim.afterRead h s.pc) _⟩

theorem read16 (a0 a1 : Addr) : Alike R (s.read16 a0 a1) (s'.read16 a0 a1) := by
  have hlow := sim.afterRead h a0
  refine ⟨?_, sim.afterRead hlow a1⟩
  rw [State.read16_fst, State.read16_fst, sim.busByte h a0, sim.busByte hlow a1]

theorem push (v : Byte) : R (s.push v) (s'.push v) := by
  obtain ⟨-, -, -, hsp⟩ := sim.regs h
  simp only [State.push_eq, hsp]
  exact sim.setSp (sim.memWrite h _ _) _

theorem pop : Alike R s.pop s'.pop := by
  obtain ⟨-, -, -, hsp⟩ := sim.regs h
  simp only [Alike, State.pop_fst, State.pop_snd, hsp]
  exact ⟨sim.busByte h _, sim.afterRead (sim.setSp h _) _⟩

theorem pushAddr (a : Addr) : R (s.pushAddr a) (s'.pushAddr a) := sim.push (sim.push h _) _

theorem popAddr : Alike R s.popAddr s'.popAddr := by
  obtain ⟨hlow, hbetween⟩ := sim.pop h
  obtain ⟨hhigh, hread⟩ := sim.pop hbetween
  refine ⟨?_, hread⟩
  rw [State.popAddr_fst, State.popAddr_fst, hlow, hhigh]

theorem pushSequence (v : Byte) : R (s.pushSequence v) (s'.pushSequence v) := sim.push (sim.implied h) v

theorem pullSequence : Alike R s.pullSequence s'.pullSequence := sim.pop (sim.dummyStack (sim.implied h))

/-- A jump to the address that a pointer holds. -/
theorem jumpThrough (a0 a1 : Addr) :
    R ((s.read16 a0 a1).2.setPc (s.read16 a0 a1).1) ((s'.read16 a0 a1).2.setPc (s'.read16 a0 a1).1) := by
  obtain ⟨htarget, hread⟩ := sim.read16 h a0 a1
  rw [htarget]
  exact sim.setPc hread _

/-! ### Operands and branches -/

theorem indexed (base : Addr) (index : Byte) (cls : Access) :
    Alike R (indexed base index cls s) (indexed base index cls s') := by
  refine ⟨rfl, ?_⟩
  simp only [Machine.indexed]
  split
  · exact sim.afterRead h _
  · exact h

theorem effAddr (m : MemMode) (cls : Access) : Alike R (effAddr m cls s) (effAddr m cls s') := by
  obtain ⟨-, hx, hy, -⟩ := sim.regs h
  cases m <;> simp only [Machine.effAddr, hx, hy]
  case zp | abs => exact ⟨rfl, h⟩
  case zpx | zpy => exact ⟨rfl, sim.afterRead h _⟩
  case abx | aby => exact sim.indexed h _ _ cls
  case izx => exact sim.read16 (sim.afterRead h _) _ _
  case izy d =>
    obtain ⟨hbase, hread⟩ : Alike R (zeroPagePointer d s) (zeroPagePointer d s') := sim.read16 h _ _
    rw [hbase]
    exact sim.indexed hread _ _ cls
  case izp => exact sim.read16 h _ _

theorem readSrc (src : Src) : Alike R (readSrc src s) (readSrc src s') := by
  cases src with
  | imm v => exact ⟨rfl, h⟩
  | mem m =>
    obtain ⟨haddr, hread⟩ := sim.effAddr h m .read
    simp only [Machine.readSrc, haddr]
    exact sim.memRead hread _

theorem writeMem (m : MemMode) (v : Byte) : R (writeMem m v s) (writeMem m v s') := by
  obtain ⟨haddr, hread⟩ := sim.effAddr h m .write
  rw [writeMem_eq, writeMem_eq, haddr]
  exact sim.memWrite hread _ v

theorem modifyMem (m : MemMode) (f : Byte → Byte) : Alike R (modifyMem m f s) (modifyMem m f s') := by
  obtain ⟨haddr, hread⟩ := sim.effAddr h m .rmw
  have hvalue : (Machine.modifyMem m f s').1 = (Machine.modifyMem m f s).1 := by
    rw [modifyMem_fst, modifyMem_fst, haddr, sim.busByte hread]
  refine ⟨hvalue, ?_⟩
  rw [modifyMem_snd, modifyMem_snd, haddr, hvalue]
  exact sim.memWrite (sim.afterRead (sim.afterRead hread _) _) _ _

theorem modifyTgt (t : Tgt) (f : Byte → Byte) : Alike R (modifyTgt t f s) (modifyTgt t f s') := by
  obtain ⟨ha, -⟩ := sim.regs h
  cases t with
  | acc =>
    simp only [modifyTgt_acc, ha, sim.pc h]
    exact ⟨rfl, sim.setA (sim.afterRead h _) _⟩
  | mem m => exact sim.modifyMem h m f

theorem branch (cond : Bool) (off : Byte) : R (s.branch cond off) (s'.branch cond off) := by
  cases cond with
  | false => exact h
  | true =>
    simp only [State.branch, if_true, sim.pc h]
    split
    · exact sim.setPc (sim.afterRead (sim.afterRead h _) _) _
    · exact sim.setPc (sim.afterRead h _) _

theorem bitBranch (wanted : Bool) (n : BitVec 3) (d off : Byte) :
    R (s.bitBranch wanted n d off) (s'.bitBranch wanted n d off) := by
  obtain ⟨-, hfetch⟩ := sim.fetch8 (sim.afterRead (sim.afterRead h (zeroPage d)) (zeroPage d))
  simp only [State.bitBranch, State.memRead_fst, sim.busByte h]
  exact sim.branch hfetch _ off

/-! ### Exceptions -/

theorem takeException (hpushed : PushedAlike Q) (vector : Addr) (bSet : Bool) :
    R (s.takeException vector bSet) (s'.takeException vector bSet) := by
  obtain ⟨hparams, -⟩ := sim.env h
  have hsaved := sim.push (sim.pushAddr h s.pc) (pushedStatus bSet s.p)
  have hmasked := sim.putFlag hsaved 2 (by decide) true
  simp only [State.takeException, hparams, sim.pc h, hpushed (sim.status h)]
  split
  · exact sim.jumpThrough (sim.putFlag hmasked 3 (by decide) false) _ _
  · exact sim.jumpThrough hmasked _ _

theorem interruptEntry (hpushed : PushedAlike Q) (vector : Addr) :
    R (s.interruptEntry vector) (s'.interruptEntry vector) :=
  sim.takeException (sim.implied (sim.implied h)) hpushed vector false

theorem returnFromException : R s.returnFromException s'.returnFromException := by
  obtain ⟨hp, hread⟩ := sim.pop h
  have hrestored := sim.setP hread (sim.restored s.pop.1)
  obtain ⟨htarget, hpopped⟩ := sim.popAddr hrestored
  simp only [State.returnFromException, hp, htarget]
  exact sim.setPc hpopped _

/-! ### Instructions -/

/-- Every instruction answers a next state from both of two related states, and those are related; PHP and BRK push P. -/
theorem exec (i : Instr) (hpushed : i = .php ∨ i = .brk → PushedAlike Q) :
    ∃ t t', exec i s = .next t ∧ exec i s' = .next t' ∧ R t t' := by
  obtain ⟨ha, hx, hy, hsp⟩ := sim.regs h
  have hpc := sim.pc h
  have hp := sim.status h
  have himplied := sim.implied h
  cases i
  case lda src =>
    obtain ⟨hv, hread⟩ := sim.readSrc h src
    exact ⟨_, _, rfl, rfl, by rw [hv]; exact sim.setZN (sim.setA hread _) _⟩
  case ldx src =>
    obtain ⟨hv, hread⟩ := sim.readSrc h src
    exact ⟨_, _, rfl, rfl, by rw [hv]; exact sim.setZN (sim.setX hread _) _⟩
  case ldy src =>
    obtain ⟨hv, hread⟩ := sim.readSrc h src
    exact ⟨_, _, rfl, rfl, by rw [hv]; exact sim.setZN (sim.setY hread _) _⟩
  case and src | ora src | eor src =>
    obtain ⟨hv, hread⟩ := sim.readSrc h src
    exact ⟨_, _, rfl, rfl, by rw [hv, ha]; exact sim.setZN (sim.setA hread _) _⟩
  case adc src | sbc src =>
    obtain ⟨hv, hread⟩ := sim.readSrc h src
    exact ⟨_, _, rfl, rfl, by rw [hv, ha, sim.flagC h]; exact sim.setP (sim.setA hread _) (sim.putAlu hp _)⟩
  case cmp src | cpx src | cpy src =>
    obtain ⟨hv, hread⟩ := sim.readSrc h src
    exact ⟨_, _, rfl, rfl, by simp only [hv, ha, hx, hy]; exact sim.setP hread (sim.putCompare hp _ _)⟩
  case bit src =>
    obtain ⟨hv, hread⟩ := sim.readSrc h src
    cases src with
    | imm v => exact ⟨_, _, exec_bit_imm v s, exec_bit_imm v s', by rw [ha]; exact sim.setP h (sim.putTest hp _ _)⟩
    | mem m =>
      exact ⟨_, _, exec_bit_mem m s, exec_bit_mem m s', by rw [hv, ha]; exact sim.setP hread (sim.putBitTest hp _ _)⟩
  case sta m => exact ⟨_, _, rfl, rfl, by rw [ha]; exact sim.writeMem h m _⟩
  case stx m => exact ⟨_, _, rfl, rfl, by rw [hx]; exact sim.writeMem h m _⟩
  case sty m => exact ⟨_, _, rfl, rfl, by rw [hy]; exact sim.writeMem h m _⟩
  case stz m => exact ⟨_, _, rfl, rfl, sim.writeMem h m _⟩
  case tax => exact ⟨_, _, rfl, rfl, by rw [ha]; exact sim.setZN (sim.setX himplied _) _⟩
  case tay => exact ⟨_, _, rfl, rfl, by rw [ha]; exact sim.setZN (sim.setY himplied _) _⟩
  case txa => exact ⟨_, _, rfl, rfl, by rw [hx]; exact sim.setZN (sim.setA himplied _) _⟩
  case tya => exact ⟨_, _, rfl, rfl, by rw [hy]; exact sim.setZN (sim.setA himplied _) _⟩
  case tsx => exact ⟨_, _, rfl, rfl, by rw [hsp]; exact sim.setZN (sim.setX himplied _) _⟩
  case txs => exact ⟨_, _, rfl, rfl, by rw [hx]; exact sim.setSp himplied _⟩
  case pha => exact ⟨_, _, rfl, rfl, by rw [ha]; exact sim.pushSequence h _⟩
  case php => exact ⟨_, _, rfl, rfl, by rw [hpushed (.inl rfl) hp]; exact sim.pushSequence h _⟩
  case phx => exact ⟨_, _, rfl, rfl, by rw [hx]; exact sim.pushSequence h _⟩
  case phy => exact ⟨_, _, rfl, rfl, by rw [hy]; exact sim.pushSequence h _⟩
  case pla =>
    obtain ⟨hv, hread⟩ := sim.pullSequence h
    exact ⟨_, _, rfl, rfl, by rw [hv]; exact sim.setZN (sim.setA hread _) _⟩
  case plx =>
    obtain ⟨hv, hread⟩ := sim.pullSequence h
    exact ⟨_, _, rfl, rfl, by rw [hv]; exact sim.setZN (sim.setX hread _) _⟩
  case ply =>
    obtain ⟨hv, hread⟩ := sim.pullSequence h
    exact ⟨_, _, rfl, rfl, by rw [hv]; exact sim.setZN (sim.setY hread _) _⟩
  case plp =>
    obtain ⟨hv, hread⟩ := sim.pullSequence h
    exact ⟨_, _, rfl, rfl, by rw [hv]; exact sim.setP hread (sim.restored _)⟩
  case inc t | dec t =>
    obtain ⟨hv, hread⟩ := sim.modifyTgt h t _
    exact ⟨_, _, rfl, rfl, by rw [hv]; exact sim.setZN hread _⟩
  case asl t | lsr t =>
    obtain ⟨hv, hread⟩ := sim.modifyTgt h t _
    exact ⟨_, _, rfl, rfl, by rw [hv]; exact sim.setP hread (sim.putShift hp _)⟩
  case rol t | ror t =>
    obtain ⟨hv, hread⟩ := sim.modifyTgt h t _
    exact ⟨_, _, rfl, rfl, by rw [sim.flagC h, hv]; exact sim.setP hread (sim.putShift hp _)⟩
  case tsb m | trb m =>
    obtain ⟨hv, hread⟩ := sim.modifyMem h m _
    exact ⟨_, _, rfl, rfl, by rw [ha, hv]; exact sim.setP hread (sim.putTest hp _ _)⟩
  case inx | dex => exact ⟨_, _, rfl, rfl, by rw [hx]; exact sim.setZN (sim.setX himplied _) _⟩
  case iny | dey => exact ⟨_, _, rfl, rfl, by rw [hy]; exact sim.setZN (sim.setY himplied _) _⟩
  case clc | sec | cld | sed | cli | sei | clv => exact ⟨_, _, rfl, rfl, sim.putFlag himplied _ (by decide) _⟩
  case jmpAbs a => exact ⟨_, _, rfl, rfl, sim.setPc h a⟩
  case jmpInd a => exact ⟨_, _, rfl, rfl, by rw [hpc]; exact sim.jumpThrough (sim.afterRead h _) _ _⟩
  case jmpIax a => exact ⟨_, _, rfl, rfl, by rw [hpc, hx]; exact sim.jumpThrough (sim.afterRead h _) _ _⟩
  case jsr a => exact ⟨_, _, rfl, rfl, by rw [hpc]; exact sim.setPc (sim.pushAddr (sim.dummyStack h) _) a⟩
  case rts =>
    obtain ⟨hback, hread⟩ := sim.popAddr (sim.dummyStack himplied)
    exact ⟨_, _, rfl, rfl, by rw [hback]; exact sim.setPc (sim.afterRead hread _) _⟩
  case bpl off | bmi off => exact ⟨_, _, rfl, rfl, by rw [sim.flagN h]; exact sim.branch h _ off⟩
  case bvc off | bvs off => exact ⟨_, _, rfl, rfl, by rw [sim.flagV h]; exact sim.branch h _ off⟩
  case bcc off | bcs off => exact ⟨_, _, rfl, rfl, by rw [sim.flagC h]; exact sim.branch h _ off⟩
  case bne off | beq off => exact ⟨_, _, rfl, rfl, by rw [sim.flagZ h]; exact sim.branch h _ off⟩
  case bra off => exact ⟨_, _, rfl, rfl, sim.branch h true off⟩
  case brk =>
    obtain ⟨-, hfetch⟩ := sim.fetch8 h
    exact ⟨_, _, rfl, rfl, sim.takeException hfetch (hpushed (.inr rfl)) _ true⟩
  case rti => exact ⟨_, _, rfl, rfl, sim.returnFromException (sim.dummyStack himplied)⟩
  case nop => exact ⟨_, _, rfl, rfl, himplied⟩
  case nop1 | nopImm => exact ⟨_, _, rfl, rfl, h⟩
  case nopZp d => exact ⟨_, _, rfl, rfl, sim.afterRead h _⟩
  case nopZpx op d => exact ⟨_, _, rfl, rfl, by rw [hx]; exact sim.afterRead (sim.afterRead h _) _⟩
  case nopAbs op a => exact ⟨_, _, rfl, rfl, sim.afterRead h a⟩
  case nopAbs8 => exact ⟨_, _, rfl, rfl, sim.idle h 5⟩
  case halt => exact ⟨_, _, rfl, rfl, sim.setRun h .halted⟩
  case rmb n d | smb n d =>
    obtain ⟨-, hmodified⟩ := sim.modifyMem h (.zp d) _
    exact ⟨_, _, rfl, rfl, hmodified⟩
  case bbr n d off | bbs n d off => exact ⟨_, _, rfl, rfl, sim.bitBranch h _ n d off⟩
  case wai | stp => exact ⟨_, _, rfl, rfl, sim.setRun (sim.implied himplied) _⟩

/-! ### Steps -/

theorem fetchInstr : Alike R s.fetchInstr s'.fetchInstr := by
  obtain ⟨hparams, -⟩ := sim.env h
  obtain ⟨hb0, h1⟩ := sim.fetch8 h
  obtain ⟨hb1, h2⟩ := sim.fetch8 h1
  obtain ⟨hb2, h3⟩ := sim.fetch8 h2
  simp only [Alike, State.fetchInstr, hparams, hb0, hb1, hb2, true_and]
  split
  · exact h1
  · exact h2
  · exact h3

variable (hpushed : PushedAlike Q)

include hpushed

theorem poll : R s.poll s'.poll := by
  obtain ⟨-, -, hirq, hnmi, -⟩ := sim.env h
  cases hn : s.nmiPending with
  | true =>
    rw [State.poll_of_nmi hn, State.poll_of_nmi (hnmi.trans hn)]
    exact sim.interruptEntry (sim.clearNmi h) hpushed _
  | false =>
    cases hi : s.irqLine && !s.flagI with
    | true =>
      rw [State.poll_of_irq hn hi, State.poll_of_irq (hnmi.trans hn) (by rw [hirq, sim.flagI h, hi])]
      exact sim.interruptEntry h hpushed _
    | false => rwa [State.poll_of_none hn hi, State.poll_of_none (hnmi.trans hn) (by rw [hirq, sim.flagI h, hi])]

theorem fetchExecute : ∃ t t', s.fetchExecute = .next t ∧ s'.fetchExecute = .next t' ∧ R t t' := by
  obtain ⟨hinstr, hfetched⟩ := sim.fetchInstr h
  simp only [State.fetchExecute, hinstr]
  exact sim.exec hfetched _ fun _ => hpushed

theorem turn : ∃ t t', s.turn = .next t ∧ s'.turn = .next t' ∧ R t t' := by
  have hsampled := sim.sampleInputs h
  have hrun := sim.run hsampled
  obtain ⟨-, -, -, -, hstop⟩ := sim.env h
  obtain ⟨-, -, hirq, hnmi, hstop'⟩ := sim.env hsampled
  simp only [State.turn, hstop, hstop', hrun, hirq, hnmi]
  split
  · exact ⟨s, s', rfl, rfl, h⟩
  split
  · exact ⟨_, _, rfl, rfl, hsampled⟩
  split
  · exact ⟨_, _, rfl, rfl, sim.idle hsampled 1⟩
  · exact sim.fetchExecute (sim.poll (sim.setRun hsampled .running) hpushed) hpushed

/-- Outside `Boot` a step answers a next state from both of two related states, and those are related. -/
theorem step (hboot : s.run ≠ .boot) : ∃ t t', step s = .next t ∧ step s' = .next t' ∧ R t t' := by
  have hrun := sim.run h
  cases hs : s.run <;> simp only [Machine.step, hrun, hs]
  case boot => exact absurd hs hboot
  case running | waiting => exact sim.turn h hpushed
  case halted | stopped => exact ⟨s, s', rfl, rfl, h⟩

end
end Simulation

end Sys2Proof.Machine
end

section
/-! What a step keeps and what its log explains (R27, R78, R355, R357): the relation of a run with itself; and the
settlement of O11, O10, O9 and O8. -/

namespace Sys2Proof.Machine

open Sys2Proof.Rules

/-! ### Logs that explain memory (R78) -/

theorem Explains.append {openBus : List Byte} {events events' : List BusEvent} {m m' m'' : Addr → Option Byte}
    (h : Explains openBus events m m') (h' : Explains openBus events' m' m'') :
    Explains openBus (events ++ events') m m'' := by
  induction events generalizing m with
  | nil =>
    obtain rfl : m' = m := funext h
    exact h'
  | cons e rest ih =>
    cases e with
    | read a v => exact ⟨h.1, ih h.2⟩
    | write a v => exact ih h
    | idle n => exact ih h

theorem logCycles_append (events events' : List BusEvent) :
    logCycles (events ++ events') = logCycles events + logCycles events' := by
  simp only [logCycles, List.map_append, List.sum_append]

/-- The state `t` is accounted for from `s`: parameters, the canonical form of SysRAM and bit 5 of P are kept, and LOG has gained
events that explain memory and CYC. -/
structure Accounted (s t : State) : Prop where
  params : t.params = s.params
  ram : s.ram.wf s.ramFill.byte 0x8000 = true → t.ram.wf t.ramFill.byte 0x8000 = true
  bit5 : s.p.getLsbD 5 = true → t.p.getLsbD 5 = true
  log : ∃ events, Logs s t events ∧ Explains (OpenBus.members s.params.openBus) events s.stored t.stored ∧
    t.cyc = s.cyc + logCycles events

theorem Accounted.trans {s t u : State} (h : Accounted s t) (h' : Accounted t u) : Accounted s u := by
  obtain ⟨hparams, hram, hbit5, events, hlogs, hexplains, hcyc⟩ := h
  obtain ⟨hparams', hram', hbit5', events', hlogs', hexplains', hcyc'⟩ := h'
  rw [hparams] at hexplains'
  exact ⟨hparams'.trans hparams, hram' ∘ hram, hbit5' ∘ hbit5, events ++ events', hlogs.trans hlogs',
    hexplains.append hexplains', by rw [hcyc', hcyc, logCycles_append, Nat.add_assoc]⟩

/-- What leaves memory, CYC, LOG and the parameters alone needs no event. -/
theorem Accounted.of_same {s t : State} (hparams : t.params = s.params) (hram : t.ram = s.ram)
    (hfill : t.ramFill = s.ramFill) (hlog : t.log = s.log) (hcyc : t.cyc = s.cyc)
    (hbit5 : s.p.getLsbD 5 = true → t.p.getLsbD 5 = true) : Accounted s t := by
  have hlogs : Logs s t [] := by rw [Logs, List.append_nil, State.busLog, State.busLog, hlog]
  have hstored : SameStored s t := fun b => by simp only [State.stored, hram, hfill, hparams]
  exact ⟨hparams, by rw [hram, hfill]; exact id, hbit5, [], hlogs, hstored, hcyc⟩

theorem Accounted.refl (s : State) : Accounted s s := .of_same rfl rfl rfl rfl rfl id

theorem State.afterRead_accounted (s : State) (a : Addr) : Accounted s (s.afterRead a) :=
  ⟨rfl, id, id, _, s.afterRead_logs a, ⟨s.busByte_cases a, fun _ => rfl⟩, rfl⟩

theorem State.memWrite_accounted (s : State) (a : Addr) (v : Byte) : Accounted s (s.memWrite a v) :=
  ⟨rfl, State.memWrite_ram_wf, id, _, s.memWrite_logs a v, s.memWrite_storesAt a v, rfl⟩

theorem State.idle_accounted (s : State) (n : Nat) : Accounted s (s.idle n) :=
  ⟨rfl, id, id, _, s.idle_logs n, fun _ => rfl, rfl⟩

theorem State.sampleInputs_accounted (s : State) : Accounted s s.sampleInputs := by
  unfold State.sampleInputs
  split
  · exact Accounted.refl s
  · exact .of_same rfl rfl rfl rfl rfl id

/-- Whatever an instruction or a step leads to is accounted for from where it began. -/
theorem accounted_simulation (s₀ : State) :
    Simulation (fun s s' => s' = s ∧ Accounted s₀ s)
      (fun p p' => p' = p ∧ (s₀.p.getLsbD 5 = true → p.getLsbD 5 = true)) where
  regs := by rintro s _ ⟨rfl, -⟩; exact ⟨rfl, rfl, rfl, rfl⟩
  pc := by rintro s _ ⟨rfl, -⟩; rfl
  run := by rintro s _ ⟨rfl, -⟩; rfl
  env := by rintro s _ ⟨rfl, -⟩; exact ⟨rfl, rfl, rfl, rfl, rfl⟩
  status := by rintro s _ ⟨rfl, h⟩; exact ⟨rfl, h.bit5⟩
  busByte := by rintro s _ ⟨rfl, -⟩ a; rfl
  afterRead := by rintro s _ ⟨rfl, h⟩ a; exact ⟨rfl, h.trans (State.afterRead_accounted _ a)⟩
  memWrite := by rintro s _ ⟨rfl, h⟩ a v; exact ⟨rfl, h.trans (State.memWrite_accounted _ a v)⟩
  idle := by rintro s _ ⟨rfl, h⟩ n; exact ⟨rfl, h.trans (State.idle_accounted _ n)⟩
  setA := by rintro s _ ⟨rfl, h⟩ v; exact ⟨rfl, h.trans (.of_same rfl rfl rfl rfl rfl id)⟩
  setX := by rintro s _ ⟨rfl, h⟩ v; exact ⟨rfl, h.trans (.of_same rfl rfl rfl rfl rfl id)⟩
  setY := by rintro s _ ⟨rfl, h⟩ v; exact ⟨rfl, h.trans (.of_same rfl rfl rfl rfl rfl id)⟩
  setSp := by rintro s _ ⟨rfl, h⟩ v; exact ⟨rfl, h.trans (.of_same rfl rfl rfl rfl rfl id)⟩
  setPc := by rintro s _ ⟨rfl, h⟩ v; exact ⟨rfl, h.trans (.of_same rfl rfl rfl rfl rfl id)⟩
  setRun := by rintro s _ ⟨rfl, h⟩ v; exact ⟨rfl, h.trans (.of_same rfl rfl rfl rfl rfl id)⟩
  setP := by
    rintro s _ p _ ⟨rfl, h⟩ ⟨rfl, hp⟩
    exact ⟨rfl, { h with bit5 := hp }⟩
  clearNmi := by rintro s _ ⟨rfl, h⟩; exact ⟨rfl, h.trans (.of_same rfl rfl rfl rfl rfl id)⟩
  sampleInputs := by rintro s _ ⟨rfl, h⟩; exact ⟨rfl, h.trans (State.sampleInputs_accounted _)⟩
  putBit := by
    rintro p _ ⟨rfl, hp⟩ k hk b
    have hk5 : 5 ≠ k := by rintro rfl; exact absurd hk (by decide)
    exact ⟨rfl, fun h => by rw [putBit_getLsbD _ _ _ _ (by decide), if_neg hk5, hp h]⟩
  restored v := ⟨rfl, fun _ => restoredStatus_getLsbD v 5 (by decide)⟩
  tested := by rintro p _ ⟨rfl, -⟩ k -; rfl

theorem exec_accounted (i : Instr) (s : State) : ∃ t, exec i s = .next t ∧ Accounted s t := by
  obtain ⟨t, _, hnext, -, -, hacc⟩ :=
    (accounted_simulation s).exec ⟨rfl, Accounted.refl s⟩ i (by rintro - p _ ⟨rfl, -⟩ b; rfl)
  exact ⟨t, hnext, hacc⟩

theorem step_accounted {s : State} (hboot : s.run ≠ .boot) : ∃ t, step s = .next t ∧ Accounted s t := by
  obtain ⟨t, _, hnext, -, -, hacc⟩ :=
    (accounted_simulation s).step ⟨rfl, Accounted.refl s⟩ (by rintro p _ ⟨rfl, -⟩ b; rfl) hboot
  exact ⟨t, hnext, hacc⟩

/-! ### Totality (R117, R300) -/

theorem step_total (s : State) : ∃ t, step s = .next t := by
  by_cases hboot : s.run = .boot
  · exact ⟨_, step_of_boot hboot⟩
  · obtain ⟨t, hnext, -⟩ := step_accounted hboot
    exact ⟨t, hnext⟩

theorem run_succ_of_next {s t : State} (hnext : step s = .next t) (n : Nat) :
    Host.Core.run Sys2Proof.core (n + 1) s = Host.Core.run Sys2Proof.core n t := by
  have hcore : Sys2Proof.core.step s = .next t := hnext
  simp only [Host.Core.run, hcore]

theorem safeFrom (s : State) : SafeFrom s := by
  intro n
  induction n generalizing s with
  | zero => exact ⟨s, rfl⟩
  | succ n ih =>
    obtain ⟨t, hnext⟩ := step_total s
    obtain ⟨u, hrun⟩ := ih t
    exact ⟨u, (run_succ_of_next hnext n).trans hrun⟩

/-- Settles O11: an instruction is made of operations that all answer; a step adds the reset sequence. -/
theorem everyOpcodeTerminates : Obligations.EveryOpcodeTerminates := by
  refine ⟨fun i s => ?_, step_total, safeFrom⟩
  obtain ⟨t, hnext, -⟩ := exec_accounted i s
  exact ⟨t, hnext⟩

/-- Settles O10: outside `Boot` the state after a step is accounted for. -/
theorem logExplainsMemory : Obligations.LogExplainsMemory := by
  intro s t hboot hnext
  obtain ⟨t', hnext', hacc⟩ := step_accounted hboot
  obtain rfl : t' = t := Host.Outcome.next.inj (hnext'.symm.trans hnext)
  exact ⟨hacc.params, hacc.log⟩

/-! ### The invariant -/

/-- The reset sequence leaves an empty SysRAM, P = `$20` and the log of the two reads of its vector. -/
theorem State.resetSequence_inv {s : State} (hrom0 : Memory.wf romBlank 0x2000 s.params.rom0 = true)
    (hrom1 : Memory.wf romBlank 0x2000 s.params.rom1 = true) : s.resetSequence.Inv where
  ram := Memory.wf_nil _ _
  rom0 := hrom0
  rom1 := hrom1
  bit5 := (by decide : (0x20#8 : Byte).getLsbD 5 = true)
  cycles := rfl
  vector _ := rfl

/-- What is accounted for from a state outside `Boot` meets the invariant with it: the log only grows at its end. -/
theorem State.Inv.of_accounted {s t : State} (h : s.Inv) (hboot : s.run ≠ .boot) (hacc : Accounted s t) : t.Inv := by
  obtain ⟨hparams, hram, hbit5, events, hlogs, -, hcyc⟩ := hacc
  have hvector := h.vector hboot
  have hlength : 2 ≤ s.busLog.length := by
    have hlen := congrArg List.length hvector
    rw [List.length_take, List.length_cons, List.length_cons, List.length_nil] at hlen
    omega
  refine ⟨hram h.ram, hparams ▸ h.rom0, hparams ▸ h.rom1, hbit5 h.bit5, ?_, fun _ => ?_⟩
  · rw [hcyc, h.cycles, hlogs, logCycles_append]
  · rw [hlogs, List.take_append_of_le_length hlength, hvector, hparams]

/-- Settles O9: the reset sequence establishes the invariant, and every other step is accounted for. -/
theorem stepKeepsInvariant : Obligations.StepKeepsInvariant := by
  intro s t hinv hnext
  by_cases hboot : s.run = .boot
  · obtain rfl := Host.Outcome.next.inj ((step_of_boot hboot).symm.trans hnext)
    exact State.resetSequence_inv hinv.rom0 hinv.rom1
  · obtain ⟨t', hnext', hacc⟩ := step_accounted hboot
    obtain rfl : t' = t := Host.Outcome.next.inj (hnext'.symm.trans hnext)
    exact hinv.of_accounted hboot hacc

theorem State.resetSequence_powerOn (p : Params) : (State.powerOn p).resetSequence = State.afterReset p := by
  obtain ⟨_, _, ramInit, _, _, _, _, _, _, _⟩ := p
  cases ramInit <;> rfl

/-- Settles O8: the state after reset is what the reset sequence makes of the state at power-on, whose log is empty. -/
theorem resetMeetsInvariant : Obligations.ResetMeetsInvariant := by
  have hreset (p : Params) (hrom0 : Memory.wf romBlank 0x2000 p.rom0 = true)
      (hrom1 : Memory.wf romBlank 0x2000 p.rom1 = true) : (State.afterReset p).Inv := by
    rw [← State.resetSequence_powerOn]
    exact State.resetSequence_inv hrom0 hrom1
  refine ⟨hreset Params.standard rfl rfl, fun p hrom0 hrom1 => ⟨hreset p hrom0 hrom1, ?_⟩⟩
  exact ⟨rfl, hrom0, hrom1, (by decide : (0x20#8 : Byte).getLsbD 5 = true), rfl, fun h => absurd rfl h⟩

end Sys2Proof.Machine
end

section
/-! What a step never reads: two runs are compared, one with another past (R40, R41) or with another bit of P that nothing tests
(R28, R34); and the settlement of O12, O15 and O40. -/

namespace Sys2Proof.Machine

open Sys2Proof.Rules

/-! ### CYC and LOG -/

/-- The state with `n` cycles and the events `past`, newest first, before its own. -/
def State.withPast (n : Nat) (past : List BusEvent) (s : State) : State :=
  { s with cyc := n + s.cyc, log := s.log ++ past }

theorem withPast_simulation (n : Nat) (past : List BusEvent) :
    Simulation (fun s s' => s' = s.withPast n past) (fun p p' => p' = p) where
  regs := by rintro s _ rfl; exact ⟨rfl, rfl, rfl, rfl⟩
  pc := by rintro s _ rfl; rfl
  run := by rintro s _ rfl; rfl
  env := by rintro s _ rfl; exact ⟨rfl, rfl, rfl, rfl, rfl⟩
  status := by rintro s _ rfl; rfl
  busByte := by rintro s _ rfl a; rfl
  afterRead := by rintro s _ rfl a; rfl
  memWrite := by rintro s _ rfl a v; rfl
  idle := by
    rintro s _ rfl k
    simp only [State.idle, State.withPast, Nat.add_assoc, List.cons_append]
  setA := by rintro s _ rfl v; rfl
  setX := by rintro s _ rfl v; rfl
  setY := by rintro s _ rfl v; rfl
  setSp := by rintro s _ rfl v; rfl
  setPc := by rintro s _ rfl v; rfl
  setRun := by rintro s _ rfl v; rfl
  setP := by rintro s _ p _ rfl rfl; rfl
  clearNmi := by rintro s _ rfl; rfl
  sampleInputs := by
    rintro s _ rfl
    cases hinputs : s.inputs <;> simp only [State.sampleInputs, State.withPast, hinputs]
  putBit := by rintro p _ rfl k - b; rfl
  restored _ := rfl
  tested := by rintro p _ rfl k -; rfl

/-- Settles O12: both states are one state without a past, with different pasts before it. -/
theorem cyclesAndLogAreNeverRead : Obligations.CyclesAndLogAreNeverRead := by
  intro s t c l hboot hnext
  have hpast (n : Nat) (past : List BusEvent) : ∃ z t', step { s with cyc := 0, log := [] } = .next z ∧
      step { s with cyc := n, log := past } = .next t' ∧ t' = z.withPast n past :=
    (withPast_simulation n past).step (s := { s with cyc := 0, log := [] }) rfl (by rintro p _ rfl b; rfl) hboot
  obtain ⟨z, t₁, hz, hnext₁, ht₁⟩ := hpast s.cyc s.log
  obtain ⟨z', t', hz', hnext', ht'⟩ := hpast c l
  obtain rfl : z' = z := Host.Outcome.next.inj (hz'.symm.trans hz)
  obtain rfl : t₁ = t := Host.Outcome.next.inj (hnext₁.symm.trans hnext)
  subst ht₁ ht'
  refine ⟨_, hnext', rfl, z'.log, rfl, rfl, ?_⟩
  simp only [State.withPast]
  omega

/-! ### A bit of P that is not tested -/

/-- The status bytes differ in bit `k` at most. -/
def SameButBit (k : Nat) (p p' : Byte) : Prop := ∀ j, j < 8 → j ∉ [k] → p'.getLsbD j = p.getLsbD j

theorem putBit_sameButBit (p : Byte) (k : Nat) (b : Bool) : SameButBit k p (putBit p k b) := by
  intro j hj hne
  rw [putBit_getLsbD _ _ _ _ hj, if_neg (by simpa using hne)]

theorem State.sampleInputs_p (s : State) : s.sampleInputs.p = s.p := by
  cases hinputs : s.inputs <;> simp only [State.sampleInputs, hinputs]

theorem State.setP_sampleInputs (s : State) (p : Byte) : (s.setP p).sampleInputs = s.sampleInputs.setP p := by
  cases hinputs : s.inputs <;> simp only [State.sampleInputs, State.setP, hinputs]

theorem sameButBit_simulation {k : Nat} (hk : k ∉ testedBits) :
    Simulation (fun s s' => s'.setP s.p = s ∧ SameButBit k s.p s'.p) (SameButBit k) where
  regs := by rintro s s' ⟨h, -⟩; rw [← h]; exact ⟨rfl, rfl, rfl, rfl⟩
  pc := by rintro s s' ⟨h, -⟩; rw [← h]; rfl
  run := by rintro s s' ⟨h, -⟩; rw [← h]; rfl
  env := by rintro s s' ⟨h, -⟩; rw [← h]; exact ⟨rfl, rfl, rfl, rfl, rfl⟩
  status h := h.2
  busByte := by rintro s s' ⟨h, -⟩ a; rw [← h]; rfl
  afterRead := by rintro s s' ⟨h, hp⟩ a; exact ⟨congrArg (·.afterRead a) h, hp⟩
  memWrite := by rintro s s' ⟨h, hp⟩ a v; exact ⟨congrArg (·.memWrite a v) h, hp⟩
  idle := by rintro s s' ⟨h, hp⟩ n; exact ⟨congrArg (·.idle n) h, hp⟩
  setA := by rintro s s' ⟨h, hp⟩ v; exact ⟨congrArg (·.setA v) h, hp⟩
  setX := by rintro s s' ⟨h, hp⟩ v; exact ⟨congrArg (·.setX v) h, hp⟩
  setY := by rintro s s' ⟨h, hp⟩ v; exact ⟨congrArg (·.setY v) h, hp⟩
  setSp := by rintro s s' ⟨h, hp⟩ v; exact ⟨congrArg (·.setSp v) h, hp⟩
  setPc := by rintro s s' ⟨h, hp⟩ v; exact ⟨congrArg (·.setPc v) h, hp⟩
  setRun := by rintro s s' ⟨h, hp⟩ v; exact ⟨congrArg (·.setRun v) h, hp⟩
  setP := by rintro s s' p p' ⟨h, -⟩ hp; exact ⟨congrArg (·.setP p) h, hp⟩
  clearNmi := by rintro s s' ⟨h, hp⟩; exact ⟨congrArg (fun u : State => { u with nmiPending := false }) h, hp⟩
  sampleInputs := by
    rintro s s' ⟨h, hp⟩
    rw [State.sampleInputs_p, State.sampleInputs_p, ← State.setP_sampleInputs, h]
    exact ⟨rfl, hp⟩
  putBit := by
    intro p p' hp j _ b i hi hne
    rw [putBit_getLsbD _ _ _ _ hi, putBit_getLsbD _ _ _ _ hi, hp i hi hne]
  restored v j _ _ := rfl
  tested := by
    intro p p' hp j hj
    have hlt : j < 8 := (by decide : ∀ i ∈ testedBits, i < 8) j hj
    exact hp j hlt (by simpa using fun hjk : j = k => hk (hjk ▸ hj))

/-- The pushed copy of P has bit 4 from the kind of push (R29). -/
theorem pushedAlike_sameButBit_four : PushedAlike (SameButBit 4) := by
  intro p p' hp b
  refine BitVec.eq_of_getLsbD_eq fun j hj => ?_
  rw [pushedStatus_getLsbD _ _ _ hj, pushedStatus_getLsbD _ _ _ hj]
  split
  · rfl
  split
  · rfl
  · next hne => rw [hp j hj (by simpa using hne)]

/-- Two runs of one instruction from states that differ in a bit of P that is not tested, where the instruction does not push
that bit. -/
theorem exec_sameButBit {k : Nat} (hk : k ∉ testedBits) (i : Instr)
    (hpushed : i = .php ∨ i = .brk → PushedAlike (SameButBit k)) (s : State) (b : Bool) :
    ∃ t t', exec i s = .next t ∧ exec i (s.putFlag k b) = .next t' ∧ t'.setP t.p = t ∧ StatusKept [k] t t' :=
  (sameButBit_simulation hk).exec (s := s) (s' := s.putFlag k b) ⟨rfl, putBit_sameButBit s.p k b⟩ i hpushed

/-- Settles O15: bit 4 is not tested, and the pushed copies of P do not have it. -/
theorem storedBreakBitIsNeverRead : Obligations.StoredBreakBitIsNeverRead := fun i s b =>
  exec_sameButBit (by decide) i (fun _ => pushedAlike_sameButBit_four) s b

/-- ADC and SBC keep D. -/
theorem exec_adc_sbc_flagD {src : Src} {i : Instr} (hi : i = .adc src ∨ i = .sbc src) {s t : State}
    (hnext : exec i s = .next t) : t.flagD = s.flagD := by
  have hkept (r : AluResult) : ((readSrc src s).2.setA r.result |>.setP (putAlu s.p r)).flagD = s.flagD :=
    putAlu_getLsbD s.p r 3 (by decide)
  rcases hi with rfl | rfl <;> obtain rfl := Host.Outcome.next.inj hnext <;> exact hkept _

/-- Settles O40: bit 3 is not tested, and ADC and SBC do not push P. -/
theorem decimalFlagIsIgnored : Obligations.DecimalFlagIsIgnored := by
  intro src s d i hi
  have hpushed : i = .php ∨ i = .brk → PushedAlike (SameButBit 3) := by
    rcases hi with rfl | rfl <;> exact fun h => by rcases h with h | h <;> cases h
  obtain ⟨t, t', hnext, hnext', hsame, hkept⟩ := exec_sameButBit (k := 3) (by decide) i hpushed s d
  have hd : (s.putFlag 3 d).flagD = d := s.putFlag_p_getLsbD (by decide) d
  exact ⟨t, t', hnext, hnext', hsame, hkept, exec_adc_sbc_flagD hi hnext, (exec_adc_sbc_flagD hi hnext').trans hd⟩

end Sys2Proof.Machine
end

section
/-! Which registers and which bits of P an instruction writes (the tables of 10_state.md sections 2 and 6), and the settlement of
O13 and O14. -/

namespace Sys2Proof.Machine

open Sys2Proof.Rules

/-- The registers of the table of 10_state.md section 6, P aside. -/
inductive Reg where
  | a | x | y | sp | pc

/-- Between the states no register but `regs` and no bit of P but `bits` is written. -/
structure WritesOnly (regs : List Reg) (bits : List Nat) (s t : State) : Prop where
  a : .a ∉ regs → t.a = s.a
  x : .x ∉ regs → t.x = s.x
  y : .y ∉ regs → t.y = s.y
  sp : .sp ∉ regs → t.sp = s.sp
  pc : .pc ∉ regs → t.pc = s.pc
  status : StatusKept bits s t

namespace WritesOnly

variable {regs : List Reg} {bits : List Nat} {s t u : State}

theorem refl (regs : List Reg) (bits : List Nat) (s : State) : WritesOnly regs bits s s :=
  ⟨fun _ => rfl, fun _ => rfl, fun _ => rfl, fun _ => rfl, fun _ => rfl, fun _ _ _ => rfl⟩

theorem reads (h : WritesOnly regs bits s t) (hread : ReadsOnly t u) : WritesOnly regs bits s u :=
  ⟨fun hr => hread.a.trans (h.a hr), fun hr => hread.x.trans (h.x hr), fun hr => hread.y.trans (h.y hr),
    fun hr => hread.sp.trans (h.sp hr), fun hr => hread.pc.trans (h.pc hr),
    fun k hk hlisted => (congrArg (·.getLsbD k) hread.p).trans (h.status k hk hlisted)⟩

theorem memWrite (h : WritesOnly regs bits s t) (a : Addr) (v : Byte) : WritesOnly regs bits s (t.memWrite a v) :=
  ⟨h.a, h.x, h.y, h.sp, h.pc, h.status⟩

theorem setRun (h : WritesOnly regs bits s t) (r : Run) : WritesOnly regs bits s (t.setRun r) :=
  ⟨h.a, h.x, h.y, h.sp, h.pc, h.status⟩

theorem setA (h : WritesOnly regs bits s t) (hr : .a ∈ regs) (v : Byte) : WritesOnly regs bits s (t.setA v) :=
  ⟨fun hr' => absurd hr hr', h.x, h.y, h.sp, h.pc, h.status⟩

theorem setX (h : WritesOnly regs bits s t) (hr : .x ∈ regs) (v : Byte) : WritesOnly regs bits s (t.setX v) :=
  ⟨h.a, fun hr' => absurd hr hr', h.y, h.sp, h.pc, h.status⟩

theorem setY (h : WritesOnly regs bits s t) (hr : .y ∈ regs) (v : Byte) : WritesOnly regs bits s (t.setY v) :=
  ⟨h.a, h.x, fun hr' => absurd hr hr', h.sp, h.pc, h.status⟩

theorem setSp (h : WritesOnly regs bits s t) (hr : .sp ∈ regs) (v : Byte) : WritesOnly regs bits s (t.setSp v) :=
  ⟨h.a, h.x, h.y, fun hr' => absurd hr hr', h.pc, h.status⟩

theorem setPc (h : WritesOnly regs bits s t) (hr : .pc ∈ regs) (v : Addr) : WritesOnly regs bits s (t.setPc v) :=
  ⟨h.a, h.x, h.y, h.sp, fun hr' => absurd hr hr', h.status⟩

/-- The new P differs from the first state's in the listed bits alone. -/
theorem setP (h : WritesOnly regs bits s t) {p : Byte} (hp : StatusKept bits s (t.setP p)) :
    WritesOnly regs bits s (t.setP p) :=
  ⟨h.a, h.x, h.y, h.sp, h.pc, hp⟩

theorem setZN (h : WritesOnly regs bits s t) (hz : 1 ∈ bits) (hn : 7 ∈ bits) (v : Byte) :
    WritesOnly regs bits s (t.setZN v) := by
  refine h.setP fun k hk hlisted => ?_
  have hz' : k ≠ 1 := fun hkz => hlisted (hkz ▸ hz)
  have hn' : k ≠ 7 := fun hkn => hlisted (hkn ▸ hn)
  rw [State.setP_p, putZN_getLsbD _ _ _ hk, if_neg hn', if_neg hz', h.status k hk hlisted]

theorem putFlag (h : WritesOnly regs bits s t) {k : Nat} (hk : k ∈ bits) (b : Bool) :
    WritesOnly regs bits s (t.putFlag k b) := by
  refine h.setP fun j hj hlisted => ?_
  have hne : j ≠ k := fun hjk => hlisted (hjk ▸ hk)
  rw [State.setP_p, putBit_getLsbD _ _ _ _ hj, if_neg hne, h.status j hj hlisted]

theorem afterRead (h : WritesOnly regs bits s t) (a : Addr) : WritesOnly regs bits s (t.afterRead a) :=
  h.reads (t.afterRead_readsOnly a)

theorem push (h : WritesOnly regs bits s t) (hsp : .sp ∈ regs) (v : Byte) : WritesOnly regs bits s (t.push v) :=
  (h.memWrite _ v).setSp hsp _

theorem pop (h : WritesOnly regs bits s t) (hsp : .sp ∈ regs) : WritesOnly regs bits s t.pop.2 :=
  (h.setSp hsp _).afterRead _

theorem branch (h : WritesOnly regs bits s t) (hpc : .pc ∈ regs) (cond : Bool) (off : Byte) :
    WritesOnly regs bits s (t.branch cond off) := (h.setPc hpc _).reads (t.branch_readsOnly cond off)

theorem modifyMem (h : WritesOnly regs bits s t) (m : MemMode) (f : Byte → Byte) :
    WritesOnly regs bits s (modifyMem m f t).2 :=
  (((h.reads (effAddr_readsOnly m .rmw t)).afterRead _).afterRead _).memWrite _ _

/-- What an entry through a vector writes: SP, PC, I, and D where the parameter says so (R270, R314). -/
theorem takeException (h : WritesOnly regs bits s t) (hsp : .sp ∈ regs) (hpc : .pc ∈ regs) (hi : 2 ∈ bits)
    (hd : t.params.intClearsD = true → 3 ∈ bits) (vector : Addr) (bSet : Bool) :
    WritesOnly regs bits s (t.takeException vector bSet) := by
  have hmasked := (((h.push hsp (hiByte t.pc)).push hsp (loByte t.pc)).push hsp (pushedStatus bSet t.p)).putFlag hi true
  unfold State.takeException
  dsimp only
  split
  · next hclears => exact (((hmasked.putFlag (hd hclears) false).afterRead _).afterRead _).setPc hpc _
  · exact ((hmasked.afterRead _).afterRead _).setPc hpc _

/-- What a return from an exception writes: SP, PC and all of P (R271). -/
theorem returnFromException (h : WritesOnly regs bits s t) (hsp : .sp ∈ regs) (hpc : .pc ∈ regs)
    (hall : ∀ k, k < 8 → k ∈ bits) : WritesOnly regs bits s t.returnFromException := by
  have hrestored := (h.pop hsp).setP (p := restoredStatus t.pop.1) fun k hk hlisted => absurd (hall k hk) hlisted
  exact ((hrestored.pop hsp).pop hsp).setPc hpc _

end WritesOnly

/-- The registers that the operand of a read-modify-write instruction stands in. -/
def tgtRegisters : Tgt → List Reg
  | .acc => [.a]
  | .mem _ => []

/-- The column "written by" of the table of 10_state.md section 6: the registers an instruction may write, PC beyond its own
fetch. -/
def registersWritten : Instr → List Reg
  | .lda _ | .txa | .tya | .adc _ | .sbc _ | .and _ | .ora _ | .eor _ => [.a]
  | .asl t | .lsr t | .rol t | .ror t | .inc t | .dec t => tgtRegisters t
  | .ldx _ | .tax | .tsx | .inx | .dex => [.x]
  | .ldy _ | .tay | .iny | .dey => [.y]
  | .txs | .pha | .php | .phx | .phy | .plp => [.sp]
  | .pla => [.a, .sp]
  | .plx => [.x, .sp]
  | .ply => [.y, .sp]
  | .jsr _ | .rts | .brk | .rti => [.sp, .pc]
  | .jmpAbs _ | .jmpInd _ | .jmpIax _ | .bpl _ | .bmi _ | .bvc _ | .bvs _ | .bcc _ | .bcs _ | .bne _ | .beq _ | .bra _
  | .bbr _ _ _ | .bbs _ _ _ => [.pc]
  | _ => []

/-- The column "written by" of the table of R26: the bits of P an instruction may write. `clearsD` is the parameter
`INT_CLEARS_D`. -/
def bitsWritten (clearsD : Bool) : Instr → List Nat
  | .lda _ | .ldx _ | .ldy _ | .tax | .tay | .txa | .tya | .tsx | .pla | .plx | .ply | .inc _ | .dec _
  | .inx | .iny | .dex | .dey | .and _ | .ora _ | .eor _ => [1, 7]
  | .adc _ | .sbc _ => [0, 1, 6, 7]
  | .cmp _ | .cpx _ | .cpy _ | .asl _ | .lsr _ | .rol _ | .ror _ => [0, 1, 7]
  | .bit (.mem _) => [1, 6, 7]
  | .bit (.imm _) | .tsb _ | .trb _ => [1]
  | .clc | .sec => [0]
  | .cli | .sei => [2]
  | .cld | .sed => [3]
  | .clv => [6]
  | .plp | .rti => [0, 1, 2, 3, 4, 5, 6, 7]
  | .brk => if clearsD then [2, 3] else [2]
  | _ => []

/-- The bits of P, all of which PLP and RTI write (R29). -/
theorem mem_allBits : ∀ k, k < 8 → k ∈ [0, 1, 2, 3, 4, 5, 6, 7] := by decide

theorem readSrc_writesOnly (regs : List Reg) (bits : List Nat) (src : Src) (s : State) :
    WritesOnly regs bits s (readSrc src s).2 := (WritesOnly.refl regs bits s).reads (readSrc_readsOnly src s)

theorem writeMem_writesOnly (m : MemMode) (v : Byte) (s : State) : WritesOnly [] [] s (writeMem m v s) :=
  ((WritesOnly.refl [] [] s).reads (effAddr_readsOnly m .write s)).memWrite _ v

theorem modifyTgt_writesOnly (bits : List Nat) (t : Tgt) (f : Byte → Byte) (s : State) :
    WritesOnly (tgtRegisters t) bits s (modifyTgt t f s).2 := by
  cases t with
  | acc => exact ((WritesOnly.refl _ _ s).afterRead _).setA (.head _) _
  | mem m => exact (WritesOnly.refl _ _ s).modifyMem m f

theorem State.branch_writesOnly (s : State) (cond : Bool) (off : Byte) : WritesOnly [.pc] [] s (s.branch cond off) :=
  (WritesOnly.refl _ _ s).branch (.head _) cond off

theorem State.implied_writesOnly (regs : List Reg) (bits : List Nat) (s : State) : WritesOnly regs bits s s.implied :=
  (WritesOnly.refl regs bits s).afterRead s.pc

theorem State.pullSequence_writesOnly (regs : List Reg) (bits : List Nat) (hsp : .sp ∈ regs) (s : State) :
    WritesOnly regs bits s s.pullSequence.2 := ((s.implied_writesOnly regs bits).afterRead _).pop hsp

/-- An instruction writes no register and no bit of P but those the tables list for it. -/
theorem exec_writesOnly {i : Instr} {s t : State} (hnext : exec i s = .next t) :
    WritesOnly (registersWritten i) (bitsWritten s.params.intClearsD i) s t := by
  have hrefl (regs : List Reg) (bits : List Nat) := WritesOnly.refl regs bits s
  cases i
  case bit src =>
    cases src with
    | imm v =>
      obtain rfl := Host.Outcome.next.inj ((exec_bit_imm v s).symm.trans hnext)
      exact (hrefl _ _).setP (State.setP_putTest_flags s s v).2
    | mem m =>
      obtain rfl := Host.Outcome.next.inj ((exec_bit_mem m s).symm.trans hnext)
      obtain ⟨-, -, -, hkept⟩ := State.setP_putBitTest_flags s (readSrc (.mem m) s).2 (readSrc (.mem m) s).1
      exact (readSrc_writesOnly _ _ _ s).setP hkept
  all_goals obtain rfl := Host.Outcome.next.inj hnext
  case lda src | and src | ora src | eor src =>
    exact ((readSrc_writesOnly _ _ src s).setA (.head _) _).setZN (.head _) (.tail _ (.head _)) _
  case ldx src => exact ((readSrc_writesOnly _ _ src s).setX (.head _) _).setZN (.head _) (.tail _ (.head _)) _
  case ldy src => exact ((readSrc_writesOnly _ _ src s).setY (.head _) _).setZN (.head _) (.tail _ (.head _)) _
  case adc src | sbc src =>
    obtain ⟨-, -, -, -, hkept⟩ := State.setP_putAlu_flags s ((readSrc src s).2.setA _) _
    exact ((readSrc_writesOnly _ _ src s).setA (.head _) _).setP hkept
  case cmp src | cpx src | cpy src =>
    obtain ⟨-, -, -, hkept⟩ := State.setP_putCompare_flags s (readSrc src s).2 _ _
    exact (readSrc_writesOnly _ _ src s).setP hkept
  case sta m | stx m | sty m | stz m => exact writeMem_writesOnly m _ s
  case tax | inx | dex | tsx =>
    exact ((s.implied_writesOnly _ _).setX (.head _) _).setZN (.head _) (.tail _ (.head _)) _
  case tay | iny | dey => exact ((s.implied_writesOnly _ _).setY (.head _) _).setZN (.head _) (.tail _ (.head _)) _
  case txa | tya => exact ((s.implied_writesOnly _ _).setA (.head _) _).setZN (.head _) (.tail _ (.head _)) _
  case txs => exact (s.implied_writesOnly _ _).setSp (.head _) _
  case pha | php | phx | phy => exact (s.implied_writesOnly _ _).push (.head _) _
  case pla =>
    exact ((s.pullSequence_writesOnly _ _ (.tail _ (.head _))).setA (.head _) _).setZN (.head _) (.tail _ (.head _)) _
  case plx =>
    exact ((s.pullSequence_writesOnly _ _ (.tail _ (.head _))).setX (.head _) _).setZN (.head _) (.tail _ (.head _)) _
  case ply =>
    exact ((s.pullSequence_writesOnly _ _ (.tail _ (.head _))).setY (.head _) _).setZN (.head _) (.tail _ (.head _)) _
  case plp => exact (s.pullSequence_writesOnly _ _ (.head _)).setP fun k hk hlisted => absurd (mem_allBits k hk) hlisted
  case inc t | dec t => exact (modifyTgt_writesOnly _ t _ s).setZN (.head _) (.tail _ (.head _)) _
  case asl t | lsr t | rol t | ror t =>
    obtain ⟨-, -, hkept⟩ := State.setP_putShift_flags s (modifyTgt t _ s).2 _
    exact (modifyTgt_writesOnly _ t _ s).setP hkept
  case tsb m | trb m =>
    obtain ⟨-, hkept⟩ := State.setP_putTest_flags s (modifyMem m _ s).2 _
    exact ((hrefl _ _).modifyMem m _).setP hkept
  case clc | sec | cld | sed | cli | sei | clv => exact (s.implied_writesOnly _ _).putFlag (.head _) _
  case jmpAbs a => exact (hrefl _ _).setPc (.head _) a
  case jmpInd | jmpIax => exact ((((hrefl _ _).afterRead _).afterRead _).afterRead _).setPc (.head _) _
  case jsr a =>
    exact ((((hrefl _ _).afterRead _).push (.head _) _).push (.head _) _).setPc (.tail _ (.head _)) a
  case rts =>
    exact (((((s.implied_writesOnly _ _).afterRead _).pop (.head _)).pop (.head _)).afterRead _).setPc (.tail _ (.head _)) _
  case bpl | bmi | bvc | bvs | bcc | bcs | bne | beq | bra => exact s.branch_writesOnly _ _
  case brk =>
    have hfetch := ((hrefl [.sp, .pc] (bitsWritten s.params.intClearsD .brk)).afterRead s.pc).setPc (.tail _ (.head _))
      (s.pc + 1#16)
    cases hclears : s.params.intClearsD <;> simp only [hclears] at hfetch
    · exact hfetch.takeException (.head _) (.tail _ (.head _)) (.head _) (fun h => absurd h (by simp [hclears])) _ true
    · exact hfetch.takeException (.head _) (.tail _ (.head _)) (.head _) (fun _ => .tail _ (.head _)) _ true
  case rti =>
    exact ((s.implied_writesOnly _ _).afterRead _).returnFromException (.head _) (.tail _ (.head _)) mem_allBits
  case nop => exact s.implied_writesOnly _ _
  case nop1 | nopImm => exact hrefl _ _
  case nopZp | nopAbs => exact (hrefl _ _).afterRead _
  case nopZpx => exact ((hrefl _ _).afterRead _).afterRead _
  case nopAbs8 => exact (hrefl _ _).reads (s.idle_readsOnly 5)
  case halt => exact (hrefl _ _).setRun _
  case rmb n d | smb n d => exact (hrefl _ _).modifyMem (.zp d) _
  case bbr n d off | bbs n d off =>
    exact ((((hrefl _ _).afterRead _).afterRead _).afterRead _ |>.setPc (.head _) _).branch (.head _) _ off
  case wai | stp => exact ((s.implied_writesOnly _ _).afterRead _).setRun _

theorem mem_bitsWritten_brk {clearsD : Bool} {k : Nat} (h : k ∈ bitsWritten clearsD .brk) :
    k = 2 ∨ k = 3 ∧ clearsD = true := by
  cases clearsD
  · exact .inl (List.mem_singleton.mp h)
  · simpa [bitsWritten] using h

theorem StatusKept.mem_of_ne {bits : List Nat} {s t : State} (h : StatusKept bits s t) {k : Nat} (hk : k < 8)
    (hne : t.p.getLsbD k ≠ s.p.getLsbD k) : k ∈ bits := by
  by_contra hlisted
  exact hne (h k hk hlisted)

/-- Settles O13: an instruction that changes a register is listed for it. -/
theorem registersWrittenOnlyByListed : Obligations.RegistersWrittenOnlyByListed := by
  intro i s t hnext
  have hwrites := exec_writesOnly hnext
  clear hnext
  refine ⟨fun hne => ?a, fun hne => ?x, fun hne => ?y, fun hne => ?sp, fun hne => ?pc⟩
  case a =>
    have hlisted := of_not_not (mt hwrites.a hne)
    clear hwrites
    cases i
    case lda | pla | txa | tya | adc | sbc | and | ora | eor => trivial
    case asl t | lsr t | rol t | ror t | inc t | dec t =>
      cases t with
      | acc => trivial
      | mem m => exact nomatch hlisted
    all_goals exact nomatch hlisted
  case x =>
    have hlisted := of_not_not (mt hwrites.x hne)
    clear hwrites
    cases i
    case ldx | plx | tax | tsx | inx | dex => trivial
    case asl t | lsr t | rol t | ror t | inc t | dec t => cases t <;> exact nomatch hlisted
    all_goals exact nomatch hlisted
  case y =>
    have hlisted := of_not_not (mt hwrites.y hne)
    clear hwrites
    cases i
    case ldy | ply | tay | iny | dey => trivial
    case asl t | lsr t | rol t | ror t | inc t | dec t => cases t <;> exact nomatch hlisted
    all_goals exact nomatch hlisted
  case sp =>
    have hlisted := of_not_not (mt hwrites.sp hne)
    clear hwrites
    cases i
    case txs | pha | php | phx | phy | pla | plp | plx | ply | jsr | rts | brk | rti => trivial
    case asl t | lsr t | rol t | ror t | inc t | dec t => cases t <;> exact nomatch hlisted
    all_goals exact nomatch hlisted
  case pc =>
    have hlisted := of_not_not (mt hwrites.pc hne)
    clear hwrites
    cases i
    case jmpAbs | jmpInd | jmpIax | jsr | rts | rti | brk => trivial
    case bpl | bmi | bvc | bvs | bcc | bcs | bne | beq | bra | bbr | bbs => trivial
    case asl t | lsr t | rol t | ror t | inc t | dec t => cases t <;> exact nomatch hlisted
    all_goals exact nomatch hlisted

/-- Settles O14: an instruction that changes a bit of P is listed for it; bit 5 is kept by everything that happens. -/
theorem statusBitsWrittenOnlyByListed : Obligations.StatusBitsWrittenOnlyByListed := by
  intro i s t hnext
  have hkept := (exec_writesOnly hnext).status
  refine ⟨fun hne => ?c, fun hne => ?i, fun hne => ?d, fun hne => ?b, fun hne => ?v, fun hne => ?z, fun hne => ?n,
    fun h5 => ?five⟩
  case five =>
    obtain ⟨t', hnext', hacc⟩ := exec_accounted i s
    obtain rfl : t' = t := Host.Outcome.next.inj (hnext'.symm.trans hnext)
    exact hacc.bit5 h5
  all_goals clear hnext
  case c =>
    have hlisted := hkept.mem_of_ne (k := 0) (by decide) hne
    clear hkept
    cases i
    case adc | sbc | cmp | cpx | cpy | asl | lsr | rol | ror | clc | sec | plp | rti => trivial
    case brk => simpa using mem_bitsWritten_brk hlisted
    case bit src => cases src <;> exact nomatch hlisted
    all_goals exact nomatch hlisted
  case i =>
    have hlisted := hkept.mem_of_ne (k := 2) (by decide) hne
    clear hkept
    cases i
    case sei | cli | brk | plp | rti => trivial
    case bit src => cases src <;> exact nomatch hlisted
    all_goals exact nomatch hlisted
  case d =>
    have hlisted := hkept.mem_of_ne (k := 3) (by decide) hne
    clear hkept
    cases i
    case sed | cld | plp | rti => trivial
    case brk => simpa using mem_bitsWritten_brk hlisted
    case bit src => cases src <;> exact nomatch hlisted
    all_goals exact nomatch hlisted
  case b =>
    have hlisted := hkept.mem_of_ne (k := 4) (by decide) hne
    clear hkept
    cases i
    case plp | rti => trivial
    case brk => simpa using mem_bitsWritten_brk hlisted
    case bit src => cases src <;> exact nomatch hlisted
    all_goals exact nomatch hlisted
  case v =>
    have hlisted := hkept.mem_of_ne (k := 6) (by decide) hne
    clear hkept
    cases i
    case adc | sbc | clv | plp | rti => trivial
    case bit src =>
      cases src with
      | imm v => exact nomatch hlisted
      | mem m => trivial
    case brk => simpa using mem_bitsWritten_brk hlisted
    all_goals exact nomatch hlisted
  case z =>
    have hlisted := hkept.mem_of_ne (k := 1) (by decide) hne
    clear hkept
    cases i
    case lda | ldx | ldy | tax | tay | txa | tya | tsx | pla | plx | ply | inc | dec | inx | iny | dex | dey => trivial
    case adc | sbc | cmp | cpx | cpy | and | ora | eor | bit | asl | lsr | rol | ror | tsb | trb | plp | rti => trivial
    case brk => simpa using mem_bitsWritten_brk hlisted
    all_goals exact nomatch hlisted
  case n =>
    have hlisted := hkept.mem_of_ne (k := 7) (by decide) hne
    clear hkept
    cases i
    case lda | ldx | ldy | tax | tay | txa | tya | tsx | pla | plx | ply | inc | dec | inx | iny | dex | dey => trivial
    case adc | sbc | cmp | cpx | cpy | and | ora | eor | asl | lsr | rol | ror | plp | rti => trivial
    case bit src =>
      cases src with
      | imm v => exact nomatch hlisted
      | mem m => trivial
    case brk => simpa using mem_bitsWritten_brk hlisted
    all_goals exact nomatch hlisted

end Sys2Proof.Machine
end

section
/-! The decoder and the encoder (R100 to R117, R290): every row of the opcode map makes instructions that encode to its opcode,
and the row of an instruction's opcode makes that instruction from its operand bytes; and the settlement of O17, O16 and O18. -/

namespace Sys2Proof

theorem hiByte_mkAddr (hi lo : Byte) : hiByte (mkAddr hi lo) = hi :=
  (BitVec.extractLsb'_append_eq_of_le le_rfl).trans BitVec.extractLsb'_eq_self

theorem loByte_mkAddr (hi lo : Byte) : loByte (mkAddr hi lo) = lo :=
  (BitVec.extractLsb'_append_eq_of_add_le le_rfl).trans BitVec.extractLsb'_eq_self

/-! ### Which rows the parameters replace (R290) -/

/-- The parameters of the variant leave the opcode's row as the table has it. -/
def Ungated (v : Variant) (op : Byte) : Prop :=
  (v.bitops = .rockwell → op.extractLsb' 0 4 ≠ 0x7#4 ∧ op.extractLsb' 0 4 ≠ 0xF#4) ∧
  (v.waiStp = .wdc → op ≠ 0xCB#8 ∧ op ≠ 0xDB#8)

/-- An opcode whose row no parameter replaces. -/
theorem Ungated.of_opcode {op : Byte} (v : Variant)
    (h : op.extractLsb' 0 4 ≠ 0x7#4 ∧ op.extractLsb' 0 4 ≠ 0xF#4 ∧ op ≠ 0xCB#8 ∧ op ≠ 0xDB#8) : Ungated v op :=
  ⟨fun _ => ⟨h.1, h.2.1⟩, fun _ => h.2.2⟩

theorem opcodeRow_of_ungated {v : Variant} {op : Byte} (h : Ungated v op) :
    opcodeRow v op = opcodeRows.getD op.toNat (.one (.nop1 op)) := by
  obtain ⟨hbits, hwait⟩ := h
  rw [opcodeRow, if_neg fun ⟨hv, hlow⟩ => (hbits hv).1 hlow, if_neg fun ⟨hv, hlow⟩ => (hbits hv).2 hlow,
    if_neg fun ⟨hv, hop⟩ => (hwait hv).1 hop, if_neg fun ⟨hv, hop⟩ => (hwait hv).2 hop]

theorem bitOpcode_07 : ∀ n : BitVec 3, (bitOpcode 0x07#8 n).extractLsb' 0 4 = 0x7#4 ∧ (bitOpcode 0x07#8 n).msb = false ∧
    opcodeBit (bitOpcode 0x07#8 n) = n := by decide

theorem bitOpcode_87 : ∀ n : BitVec 3, (bitOpcode 0x87#8 n).extractLsb' 0 4 = 0x7#4 ∧ (bitOpcode 0x87#8 n).msb = true ∧
    opcodeBit (bitOpcode 0x87#8 n) = n := by decide

theorem bitOpcode_0F : ∀ n : BitVec 3, (bitOpcode 0x0F#8 n).extractLsb' 0 4 = 0xF#4 ∧ (bitOpcode 0x0F#8 n).msb = false ∧
    opcodeBit (bitOpcode 0x0F#8 n) = n := by decide

theorem bitOpcode_8F : ∀ n : BitVec 3, (bitOpcode 0x8F#8 n).extractLsb' 0 4 = 0xF#4 ∧ (bitOpcode 0x8F#8 n).msb = true ∧
    opcodeBit (bitOpcode 0x8F#8 n) = n := by decide

section

variable {v : Variant} (hv : v.bitops = .rockwell)

include hv

theorem opcodeRow_rmb (n : BitVec 3) : opcodeRow v (bitOpcode 0x07#8 n) = .two fun d => .rmb n d := by
  obtain ⟨hlow, hmsb, hbit⟩ := bitOpcode_07 n
  simp [opcodeRow, hv, hlow, hmsb, hbit]

theorem opcodeRow_smb (n : BitVec 3) : opcodeRow v (bitOpcode 0x87#8 n) = .two fun d => .smb n d := by
  obtain ⟨hlow, hmsb, hbit⟩ := bitOpcode_87 n
  simp [opcodeRow, hv, hlow, hmsb, hbit]

theorem opcodeRow_bbr (n : BitVec 3) : opcodeRow v (bitOpcode 0x0F#8 n) = .zprel fun d off => .bbr n d off := by
  obtain ⟨hlow, hmsb, hbit⟩ := bitOpcode_0F n
  simp [opcodeRow, hv, hlow, hmsb, hbit]

theorem opcodeRow_bbs (n : BitVec 3) : opcodeRow v (bitOpcode 0x8F#8 n) = .zprel fun d off => .bbs n d off := by
  obtain ⟨hlow, hmsb, hbit⟩ := bitOpcode_8F n
  simp [opcodeRow, hv, hlow, hmsb, hbit]

end

theorem opcodeRow_wai {v : Variant} (hv : v.waiStp = .wdc) : opcodeRow v 0xCB#8 = .one .wai := by
  simp [opcodeRow, hv]

theorem opcodeRow_stp {v : Variant} (hv : v.waiStp = .wdc) : opcodeRow v 0xDB#8 = .one .stp := by
  simp [opcodeRow, hv]

theorem opcodeBit_toNat (op : Byte) : (opcodeBit op).toNat = op.toNat / 16 % 8 := by
  rw [opcodeBit, BitVec.extractLsb'_toNat, Nat.shiftRight_eq_div_pow]

/-- An opcode is its low digit, its bits 6:4 as a bit number, and its highest bit. -/
theorem eq_bitOpcode {op : Byte} {low : Nat} (hlow : op.toNat % 16 = low) :
    op = bitOpcode (BitVec.ofNat 8 low) (opcodeBit op) ∨ op = bitOpcode (BitVec.ofNat 8 (0x80 + low)) (opcodeBit op) := by
  have hop := op.isLt
  rcases Nat.lt_or_ge op.toNat 0x80 with hmsb | hmsb
  · refine .inl (BitVec.eq_of_toNat_eq ?_)
    rw [bitOpcode_eq_ofNat, BitVec.toNat_ofNat, opcodeBit_toNat]
    omega
  · refine .inr (BitVec.eq_of_toNat_eq ?_)
    rw [bitOpcode_eq_ofNat, BitVec.toNat_ofNat, opcodeBit_toNat]
    omega

/-- The opcodes whose rows a parameter replaces: two columns, and the opcodes of WAI and STP (R290). -/
theorem ungated_or_gated (v : Variant) (op : Byte) : Ungated v op ∨
    (v.bitops = .rockwell ∧ ∃ n, op = bitOpcode 0x07#8 n ∨ op = bitOpcode 0x87#8 n ∨ op = bitOpcode 0x0F#8 n ∨
      op = bitOpcode 0x8F#8 n) ∨
    (v.waiStp = .wdc ∧ (op = 0xCB#8 ∨ op = 0xDB#8)) := by
  have hlow {low : BitVec 4} (h : op.extractLsb' 0 4 = low) : op.toNat % 16 = low.toNat := by
    rw [← h, lowNibble_toNat]
  by_cases hv : v.bitops = .rockwell ∧ (op.extractLsb' 0 4 = 0x7#4 ∨ op.extractLsb' 0 4 = 0xF#4)
  · obtain ⟨hv, hcolumn | hcolumn⟩ := hv
    · exact .inr (.inl ⟨hv, _, (eq_bitOpcode (hlow hcolumn)).imp_right .inl⟩)
    · exact .inr (.inl ⟨hv, _, .inr (.inr (eq_bitOpcode (hlow hcolumn)))⟩)
  by_cases hw : v.waiStp = .wdc ∧ (op = 0xCB#8 ∨ op = 0xDB#8)
  · exact .inr (.inr hw)
  · exact .inl ⟨fun h => not_or.mp (not_and.mp hv h), fun h => not_or.mp (not_and.mp hw h)⟩

/-! ### The rows of the opcode map -/

/-- The operand bytes that an instruction of a row is made of, in the spelling of the encoder. -/
def Row.operands (b1 b2 : Byte) : Row → List Byte
  | .one _ => []
  | .two _ => [b1]
  | .three _ => [loByte (mkAddr b2 b1), hiByte (mkAddr b2 b1)]
  | .zprel _ => [b1, b2]

theorem Row.operands_eq_take (b1 b2 : Byte) (r : Row) : r.operands b1 b2 = [b1, b2].take (r.operands b1 b2).length := by
  cases r with
  | one i | two f | zprel f => rfl
  | three f => rw [Row.operands, hiByte_mkAddr, loByte_mkAddr]; rfl

theorem Row.operands_length_le (b1 b2 : Byte) (r : Row) : (r.operands b1 b2).length ≤ 2 := by
  cases r <;> simp [Row.operands]

/-- The instructions of a row are well-formed and encode to its opcode and the bytes they are made of. -/
def Row.EncodesTo (v : Variant) (op : Byte) (r : Row) : Prop :=
  ∀ b1 b2, (r.build b1 b2).wf v = true ∧ (r.build b1 b2).opcode = some op ∧ (r.build b1 b2).operands = r.operands b1 b2

/-- The rows encode to the opcodes from number `k` on. -/
def RowsEncodeFrom (v : Variant) : Nat → List Row → Prop
  | _, [] => True
  | k, r :: rest => r.EncodesTo v (BitVec.ofNat 8 k) ∧ RowsEncodeFrom v (k + 1) rest

theorem RowsEncodeFrom.getD {v : Variant} {k : Nat} {rows : List Row} (h : RowsEncodeFrom v k rows) (default : Row) {n : Nat}
    (hn : n < rows.length) : (rows.getD n default).EncodesTo v (BitVec.ofNat 8 (k + n)) := by
  induction rows generalizing k n with
  | nil => exact absurd hn (Nat.not_lt_zero n)
  | cons r rest ih =>
    cases n with
    | zero => exact h.1
    | succ n =>
      have hrest := ih h.2 (Nat.lt_of_succ_lt_succ hn)
      rwa [Nat.add_assoc, Nat.add_comm 1 n] at hrest

/-- The table row by row: the opcodes of the rules are the places of the instructions in the opcode map (R107). -/
theorem opcodeRows_encode : RowsEncodeFrom .table 0 opcodeRows := by
  repeat refine And.intro (fun _ _ => ⟨rfl, rfl, rfl⟩) ?_
  trivial

/-- A parameter only takes rows away from the no-operations: what else the table has every variant has. -/
theorem Instr.wf_of_wf_table {v : Variant} {i : Instr} {op : Byte} (h : i.wf .table = true) (hop : i.opcode = some op)
    (hungated : Ungated v op) : i.wf v = true := by
  cases i
  case nop1 op' =>
    obtain rfl : op' = op := Option.some.inj hop
    obtain ⟨hbits, hwait⟩ := hungated
    have hlow (k : Nat) (hk : k < 16) : op'.toNat % 16 = k → op'.extractLsb' 0 4 = BitVec.ofNat 4 k := fun hmod =>
      BitVec.eq_of_toNat_eq (by rw [lowNibble_toNat, BitVec.toNat_ofNat, hmod, Nat.mod_eq_of_lt hk])
    refine (isNop1_iff v op').mpr ?_
    rcases (isNop1_iff .table op').mp h with hcolumn | ⟨hcolumn, -⟩ | ⟨-, hcolumn⟩
    · exact .inl hcolumn
    · exact .inr (.inl ⟨hcolumn, fun ⟨hv, hop⟩ => hop.elim (hwait hv).1 (hwait hv).2⟩)
    · refine .inr (.inr ⟨?_, hcolumn⟩)
      cases hv : v.bitops with
      | nop => rfl
      | rockwell =>
        obtain ⟨h7, hF⟩ := hbits hv
        exact (hcolumn.elim (fun hc => h7 (hlow 7 (by decide) hc)) fun hc => hF (hlow 15 (by decide) hc)).elim
  case rmb | smb | bbr | bbs | wai | stp => cases h
  all_goals exact h

theorem opcodeRows_length : opcodeRows.length = 256 := by
  simp only [opcodeRows, List.length_append]
  rfl

/-- Every row of every variant encodes to its opcode. -/
theorem opcodeRow_encodesTo (v : Variant) (op : Byte) : (opcodeRow v op).EncodesTo v op := by
  intro b1 b2
  rcases ungated_or_gated v op with hungated | ⟨hv, n, rfl | rfl | rfl | rfl⟩ | ⟨hv, rfl | rfl⟩
  · have hrow := opcodeRows_encode.getD (.one (.nop1 op)) (n := op.toNat) (opcodeRows_length.symm ▸ op.isLt)
    rw [Nat.zero_add, BitVec.ofNat_toNat, BitVec.setWidth_eq, ← opcodeRow_of_ungated hungated] at hrow
    obtain ⟨hwf, hop, hoperands⟩ := hrow b1 b2
    exact ⟨Instr.wf_of_wf_table hwf hop hungated, hop, hoperands⟩
  · rw [opcodeRow_rmb hv]
    exact ⟨beq_iff_eq.mpr hv, rfl, rfl⟩
  · rw [opcodeRow_smb hv]
    exact ⟨beq_iff_eq.mpr hv, rfl, rfl⟩
  · rw [opcodeRow_bbr hv]
    exact ⟨beq_iff_eq.mpr hv, rfl, rfl⟩
  · rw [opcodeRow_bbs hv]
    exact ⟨beq_iff_eq.mpr hv, rfl, rfl⟩
  · rw [opcodeRow_wai hv]
    exact ⟨beq_iff_eq.mpr hv, rfl, rfl⟩
  · rw [opcodeRow_stp hv]
    exact ⟨beq_iff_eq.mpr hv, rfl, rfl⟩

/-! ### The decoder on three bytes (R117) -/

theorem decode_cons_of_length_le {v : Variant} {b0 : Byte} {bytes : List Byte} {i : Instr}
    (hi : decodeBytes v b0 (bytes.getD 0 0#8) (bytes.getD 1 0#8) = i) (hlength : i.length ≤ bytes.length + 1) :
    decode v (b0 :: bytes) = .ok (i, bytes.drop (i.length - 1)) := by
  simp only [decode, hi, if_neg (Nat.not_lt.mpr hlength)]

/-- Settles O17: the instruction is that of the first byte's row, made from the other two. -/
theorem decoderIsTotalAndExact : Obligations.DecoderIsTotalAndExact := by
  intro v b0 b1 b2 rest
  obtain ⟨hwf, hop, hoperands⟩ := opcodeRow_encodesTo v b0 b1 b2
  have hlength : (decodeBytes v b0 b1 b2).length = 1 + ((opcodeRow v b0).operands b1 b2).length :=
    congrArg (1 + ·.length) hoperands
  have hle := (opcodeRow v b0).operands_length_le b1 b2
  have hbytes : encode (decodeBytes v b0 b1 b2) = some (b0 :: (opcodeRow v b0).operands b1 b2) := by
    rw [encode, decodeBytes, hop, hoperands, Option.map_some]
  have hdecode : decode v (b0 :: b1 :: b2 :: rest) = _ :=
    decode_cons_of_length_le (i := decodeBytes v b0 b1 b2) rfl (by rw [hlength, List.length_cons, List.length_cons]; omega)
  refine ⟨decodeBytes v b0 b1 b2, hwf, ?_, ?_⟩
  · rw [hbytes, hlength, Nat.add_comm, List.take_succ_cons, ← Row.operands_eq_take]
  · rw [hdecode, hlength, Nat.add_comm, Nat.add_sub_cancel, List.drop_succ_cons]

/-! ### The decoder on an encoding -/

/-- The row makes the instruction from the instruction's own operand bytes, whatever bytes follow. -/
def Row.Makes (r : Row) (i : Instr) : Prop :=
  ∀ rest, r.build ((i.operands ++ rest).getD 0 0#8) ((i.operands ++ rest).getD 1 0#8) = i

theorem Row.Makes.one {i : Instr} : (Row.one i).Makes i := fun _ => rfl

theorem Row.Makes.two {f : Byte → Instr} (d : Byte) (h : (f d).operands = [d]) : (Row.two f).Makes (f d) := by
  intro rest
  rw [h]
  rfl

theorem Row.Makes.three {f : Addr → Instr} (a : Addr) (h : (f a).operands = [loByte a, hiByte a]) :
    (Row.three f).Makes (f a) := by
  intro rest
  rw [h]
  exact congrArg f (Machine.mkAddr_hiByte_loByte a)

theorem Row.Makes.zprel {f : Byte → Byte → Instr} (d off : Byte) (h : (f d off).operands = [d, off]) :
    (Row.zprel f).Makes (f d off) := by
  intro rest
  rw [h]
  rfl

theorem Row.Makes.of_opcode {v : Variant} {op : Byte} {i : Instr}
    (hop : op.extractLsb' 0 4 ≠ 0x7#4 ∧ op.extractLsb' 0 4 ≠ 0xF#4 ∧ op ≠ 0xCB#8 ∧ op ≠ 0xDB#8)
    (h : (opcodeRows.getD op.toNat (.one (.nop1 op))).Makes i) : (opcodeRow v op).Makes i := by
  rwa [opcodeRow_of_ungated (.of_opcode v hop)]

/-- The columns of the one-byte no-operations in the table (R273). -/
theorem opcodeRows_getD_nop1 : ∀ digit < 16, ∀ column ∈ [0x3, 0x7, 0xB, 0xF], ∀ default : Row,
    opcodeRows.getD (16 * digit + column) default = .one (.nop1 (BitVec.ofNat 8 (16 * digit + column))) := by
  intro digit hdigit column hcolumn default
  interval_cases digit <;> fin_cases hcolumn <;> rfl

theorem opcodeRow_nop1 {v : Variant} {op : Byte} (h : isNop1 v op = true) : opcodeRow v op = .one (.nop1 op) := by
  have hlt := op.isLt
  have hungated : Ungated v op := by
    rcases ungated_or_gated v op with hungated | ⟨hv, n, rfl | rfl | rfl | rfl⟩ | ⟨hv, rfl | rfl⟩
    · exact hungated
    · simp [isNop1, hv, bitOpcode_07 n] at h
    · simp [isNop1, hv, bitOpcode_87 n] at h
    · simp [isNop1, hv, bitOpcode_0F n] at h
    · simp [isNop1, hv, bitOpcode_8F n] at h
    · simp [isNop1, hv] at h
    · simp [isNop1, hv] at h
  have hcolumn : op.toNat % 16 ∈ [0x3, 0x7, 0xB, 0xF] := by
    rcases (isNop1_iff v op).mp h with hc | ⟨hc, -⟩ | ⟨-, hc | hc⟩ <;> simp [hc]
  have hrow := opcodeRows_getD_nop1 (op.toNat / 16) (by omega) _ hcolumn (.one (.nop1 op))
  rw [Nat.div_add_mod, BitVec.ofNat_toNat, BitVec.setWidth_eq] at hrow
  rw [opcodeRow_of_ungated hungated, hrow]

/-- Each operand form that a rule lists stands in the row of its opcode. -/
theorem exists_opcode_makes {v : Variant} {i : Instr} (hwf : i.wf v = true) :
    ∃ op, i.opcode = some op ∧ (opcodeRow v op).Makes i := by
  cases i
  case lda src | adc src | sbc src | cmp src | and src | ora src | eor src =>
    cases src with
    | imm d => exact ⟨_, rfl, .of_opcode (by decide) (.two d rfl)⟩
    | mem m =>
      cases m with
      | zp d | zpx d | izx d | izy d | izp d => exact ⟨_, rfl, .of_opcode (by decide) (.two d rfl)⟩
      | abs a | abx a | aby a => exact ⟨_, rfl, .of_opcode (by decide) (.three a rfl)⟩
      | zpy d => cases hwf
  case ldx src =>
    cases src with
    | imm d => exact ⟨_, rfl, .of_opcode (by decide) (.two d rfl)⟩
    | mem m =>
      cases m with
      | zp d | zpy d => exact ⟨_, rfl, .of_opcode (by decide) (.two d rfl)⟩
      | abs a | aby a => exact ⟨_, rfl, .of_opcode (by decide) (.three a rfl)⟩
      | zpx d | izx d | izy d | izp d | abx a => cases hwf
  case ldy src | bit src =>
    cases src with
    | imm d => exact ⟨_, rfl, .of_opcode (by decide) (.two d rfl)⟩
    | mem m =>
      cases m with
      | zp d | zpx d => exact ⟨_, rfl, .of_opcode (by decide) (.two d rfl)⟩
      | abs a | abx a => exact ⟨_, rfl, .of_opcode (by decide) (.three a rfl)⟩
      | zpy d | izx d | izy d | izp d | aby a => cases hwf
  case cpx src | cpy src =>
    cases src with
    | imm d => exact ⟨_, rfl, .of_opcode (by decide) (.two d rfl)⟩
    | mem m =>
      cases m with
      | zp d => exact ⟨_, rfl, .of_opcode (by decide) (.two d rfl)⟩
      | abs a => exact ⟨_, rfl, .of_opcode (by decide) (.three a rfl)⟩
      | zpx d | zpy d | izx d | izy d | izp d | abx a | aby a => cases hwf
  case sta m =>
    cases m with
    | zp d | zpx d | izx d | izy d | izp d => exact ⟨_, rfl, .of_opcode (by decide) (.two d rfl)⟩
    | abs a | abx a | aby a => exact ⟨_, rfl, .of_opcode (by decide) (.three a rfl)⟩
    | zpy d => cases hwf
  case stx m =>
    cases m with
    | zp d | zpy d => exact ⟨_, rfl, .of_opcode (by decide) (.two d rfl)⟩
    | abs a => exact ⟨_, rfl, .of_opcode (by decide) (.three a rfl)⟩
    | zpx d | izx d | izy d | izp d | abx a | aby a => cases hwf
  case sty m =>
    cases m with
    | zp d | zpx d => exact ⟨_, rfl, .of_opcode (by decide) (.two d rfl)⟩
    | abs a => exact ⟨_, rfl, .of_opcode (by decide) (.three a rfl)⟩
    | zpy d | izx d | izy d | izp d | abx a | aby a => cases hwf
  case stz m =>
    cases m with
    | zp d | zpx d => exact ⟨_, rfl, .of_opcode (by decide) (.two d rfl)⟩
    | abs a | abx a => exact ⟨_, rfl, .of_opcode (by decide) (.three a rfl)⟩
    | zpy d | izx d | izy d | izp d | aby a => cases hwf
  case tsb m | trb m =>
    cases m with
    | zp d => exact ⟨_, rfl, .of_opcode (by decide) (.two d rfl)⟩
    | abs a => exact ⟨_, rfl, .of_opcode (by decide) (.three a rfl)⟩
    | zpx d | zpy d | izx d | izy d | izp d | abx a | aby a => cases hwf
  case inc t | dec t | asl t | lsr t | rol t | ror t =>
    cases t with
    | acc => exact ⟨_, rfl, .of_opcode (by decide) .one⟩
    | mem m =>
      cases m with
      | zp d | zpx d => exact ⟨_, rfl, .of_opcode (by decide) (.two d rfl)⟩
      | abs a | abx a => exact ⟨_, rfl, .of_opcode (by decide) (.three a rfl)⟩
      | zpy d | izx d | izy d | izp d | aby a => cases hwf
  case bpl d | bmi d | bvc d | bvs d | bcc d | bcs d | bne d | beq d | bra d | nopZp d =>
    exact ⟨_, rfl, .of_opcode (by decide) (.two d rfl)⟩
  case jmpAbs a | jmpInd a | jmpIax a | jsr a | nopAbs8 a => exact ⟨_, rfl, .of_opcode (by decide) (.three a rfl)⟩
  case nop1 op => exact ⟨op, rfl, opcodeRow_nop1 hwf ▸ .one⟩
  case nopImm op d =>
    simp only [Instr.wf, List.contains_iff_mem, List.mem_cons, List.not_mem_nil, or_false] at hwf
    rcases hwf with rfl | rfl | rfl | rfl | rfl | rfl <;> exact ⟨_, rfl, .of_opcode (by decide) (.two d rfl)⟩
  case nopZpx op d =>
    simp only [Instr.wf, List.contains_iff_mem, List.mem_cons, List.not_mem_nil, or_false] at hwf
    rcases hwf with rfl | rfl | rfl <;> exact ⟨_, rfl, .of_opcode (by decide) (.two d rfl)⟩
  case nopAbs op a =>
    simp only [Instr.wf, List.contains_iff_mem, List.mem_cons, List.not_mem_nil, or_false] at hwf
    rcases hwf with rfl | rfl <;> exact ⟨_, rfl, .of_opcode (by decide) (.three a rfl)⟩
  case rmb n d => exact ⟨_, rfl, opcodeRow_rmb (beq_iff_eq.mp hwf) n ▸ .two d rfl⟩
  case smb n d => exact ⟨_, rfl, opcodeRow_smb (beq_iff_eq.mp hwf) n ▸ .two d rfl⟩
  case bbr n d off => exact ⟨_, rfl, opcodeRow_bbr (beq_iff_eq.mp hwf) n ▸ .zprel d off rfl⟩
  case bbs n d off => exact ⟨_, rfl, opcodeRow_bbs (beq_iff_eq.mp hwf) n ▸ .zprel d off rfl⟩
  case wai => exact ⟨_, rfl, opcodeRow_wai (beq_iff_eq.mp hwf) ▸ .one⟩
  case stp => exact ⟨_, rfl, opcodeRow_stp (beq_iff_eq.mp hwf) ▸ .one⟩
  all_goals exact ⟨_, rfl, .of_opcode (by decide) .one⟩

/-- Settles O16: the row of the opcode makes the instruction from its operand bytes, and the decoder passes over those. -/
theorem decodeInvertsEncode : Obligations.DecodeInvertsEncode := by
  intro v i hwf
  obtain ⟨op, hop, hmakes⟩ := exists_opcode_makes hwf
  refine ⟨op :: i.operands, by rw [encode, hop, Option.map_some], fun rest => ?_⟩
  have hlength : i.length ≤ (i.operands ++ rest).length + 1 := by rw [Instr.length, List.length_append]; omega
  rw [List.cons_append, decode_cons_of_length_le (hmakes rest) hlength, Instr.length, Nat.add_sub_cancel_left, List.drop_left]

/-- Settles O18: each word is decoded by evaluation. -/
theorem sampleWordsDecode : Obligations.SampleWordsDecode := by
  unfold Obligations.SampleWordsDecode
  decide

end Sys2Proof
end

section
/-! The I/O window (R61, R64) and a lap of the stack (R24, R68), and the settlement of O3 and O6. -/

namespace Sys2Proof.Machine

/-! ### The I/O window (R61, R64) -/

/-- The default set `$01..$FE` (R7). -/
theorem mem_standard_iff (v : Byte) : v ∈ OpenBus.members OpenBus.standard ↔ v ≠ 0x00#8 ∧ v ≠ 0xFF#8 := by
  have hlt := v.isLt
  simp only [OpenBus.standard, OpenBus.members, List.mem_cons, List.mem_map, List.mem_range, ← BitVec.toNat_inj,
    BitVec.toNat_ofNat, ne_eq]
  constructor
  · rintro (h | ⟨i, hi, h⟩) <;> omega
  · rintro ⟨h0, hFF⟩
    rcases Nat.lt_or_ge 1 v.toNat with h1 | h1
    · exact .inr ⟨v.toNat - 2, by omega, by omega⟩
    · exact .inl (by omega)

/-- Settles O3: the window stores nothing, so that a read draws a member and a write finds no place. -/
theorem placeholderReadsAndDiscardedWrites : Obligations.PlaceholderReadsAndDiscardedWrites := by
  refine ⟨mem_standard_iff, fun s a hlow hhigh => ?_⟩
  have hnone : s.stored a = none := State.stored_eq_none_iff.mpr ⟨hlow, hhigh⟩
  have hmember : (s.memRead a).1 ∈ OpenBus.members s.params.openBus := by
    rcases s.busByte_cases a with hstored | ⟨-, hmember⟩
    · cases hnone.symm.trans hstored
    · exact hmember
  refine ⟨hmember, fun hstandard => (mem_standard_iff _).mp (hstandard ▸ hmember), fun v b => ?_⟩
  rw [s.memWrite_storesAt a v b, if_neg (by omega)]

/-! ### A lap of the stack (R24, R68) -/

theorem stackAddr_sub_ne {sp : Byte} {k n : Nat} (hk : k < n) (hn : n < 256) :
    stackAddr (sp - BitVec.ofNat 8 k) ≠ stackAddr (sp - BitVec.ofNat 8 n) := by
  rw [Ne, stackAddr_inj, ← BitVec.toNat_inj, BitVec.toNat_sub, BitVec.toNat_sub, BitVec.toNat_ofNat, BitVec.toNat_ofNat]
  omega

/-- The state after the pushes number 0 to `n - 1`. -/
def State.pushes (s : State) (v : Nat → Byte) (n : Nat) : State := (List.range n).foldl (fun u k => u.push (v k)) s

theorem State.pushes_succ (s : State) (v : Nat → Byte) (n : Nat) : s.pushes v (n + 1) = (s.pushes v n).push (v n) := by
  rw [State.pushes, List.range_succ, List.foldl_append]
  rfl

theorem State.pushes_sp (s : State) (v : Nat → Byte) (n : Nat) : (s.pushes v n).sp = s.sp - BitVec.ofNat 8 n := by
  induction n with
  | zero => exact (BitVec.sub_zero s.sp).symm
  | succ n ih =>
    have hsp : (s.pushes v (n + 1)).sp = (s.pushes v n).sp - 1#8 := by rw [State.pushes_succ]; rfl
    rw [hsp, ih, BitVec.ofNat_add, sub_sub]

theorem State.pushes_stored (s : State) (v : Nat → Byte) {n : Nat} (hn : n ≤ 256) {k : Nat} (hk : k < n) :
    (s.pushes v n).stored (stackAddr (s.sp - BitVec.ofNat 8 k)) = some (v k) := by
  induction n with
  | zero => exact absurd hk (Nat.not_lt_zero k)
  | succ n ih =>
    rw [State.pushes_succ, State.push_stored, State.pushes_sp]
    rcases Nat.lt_succ_iff_lt_or_eq.mp hk with hlt | rfl
    · rw [if_neg (stackAddr_sub_ne hlt hn), ih (by omega) hlt]
    · rw [if_pos rfl]

theorem State.pushes_stored_off_page (s : State) (v : Nat → Byte) (n : Nat) {b : Addr} (hb : hiByte b ≠ 0x01#8) :
    (s.pushes v n).stored b = s.stored b := by
  induction n with
  | zero => rfl
  | succ n ih =>
    have hne (sp : Byte) : b ≠ stackAddr sp := fun h => hb (h ▸ hiByte_mkAddr _ _)
    rw [State.pushes_succ, State.push_stored, if_neg (hne _), ih]

/-- Settles O6: by induction on the number of pushes, of which no two of 256 meet. -/
theorem fullLapOfPushes : Obligations.FullLapOfPushes := fun s v =>
  ⟨(s.pushes_sp v 256).trans (BitVec.sub_zero s.sp), fun _ hk => s.pushes_stored v le_rfl hk,
    fun _ hb => s.pushes_stored_off_page v 256 hb⟩

end Sys2Proof.Machine
end

section
/-! Effective addresses, the accesses that compute them, and the operation classes (R135 to R145), and the settlement of O26, O27
and O28. -/

namespace Sys2Proof.Machine

open Sys2Proof.Rules

/-! ### Effective addresses (R135 to R141) -/

theorem ofNat_toNat_add_toNat_byte (d x : Byte) : BitVec.ofNat 8 (d.toNat + x.toNat) = d + x := by
  rw [BitVec.ofNat_add, BitVec.ofNat_toNat, BitVec.ofNat_toNat, BitVec.setWidth_eq, BitVec.setWidth_eq]

theorem add_zeroExtend_toNat (a : Addr) (x : Byte) : (a + x.zeroExtend 16).toNat = (a.toNat + x.toNat) % 65536 := by
  rw [← ofNat_toNat_add_toNat, BitVec.toNat_ofNat]

theorem zeroPagePointer_fst_toNat (d : Byte) (s : State) :
    (zeroPagePointer d s).1.toNat =
      (s.busByte (zeroPage d)).toNat + 256 * (s.busByte (zeroPage (d + 1#8))).toNat := by
  rw [zeroPagePointer_fst, mkAddr_toNat]
  omega

/-- Settles O26: each sum by its width; a dummy read before a pointer does not change the zero page. -/
theorem effectiveAddresses : Obligations.EffectiveAddresses := by
  intro s cls d a
  have hone (n : Byte) : BitVec.ofNat 8 (n.toNat + 1) = n + 1#8 := ofNat_toNat_add_one n
  have hsame (n : Byte) : BitVec.ofNat 8 n.toNat = n := by rw [BitVec.ofNat_toNat, BitVec.setWidth_eq]
  have hpage (n x : Byte) : (zeroPage (n + x)).toNat = (n.toNat + x.toNat) % 256 := by
    rw [zeroPage_toNat, BitVec.toNat_add]
  have hindexed : BitVec.ofNat 8 (d.toNat + s.x.toNat + 1) = d + s.x + 1#8 := by
    rw [BitVec.ofNat_add, ofNat_toNat_add_toNat_byte]
  dsimp only
  rw [hone, hsame, hindexed, ofNat_toNat_add_toNat_byte]
  refine ⟨zeroPage_toNat d, hpage d s.x, hpage d s.y, rfl, add_zeroExtend_toNat a s.x, add_zeroExtend_toNat a s.y, ?izx, ?izy,
    zeroPagePointer_fst_toNat d s⟩
  case izx =>
    have hpointer := zeroPagePointer_fst_toNat (d + s.x) (s.afterRead (zeroPage d))
    rwa [State.afterRead_busByte_sysRam (region_zeroPage _), State.afterRead_busByte_sysRam (region_zeroPage _)] at hpointer
  case izy =>
    rw [← zeroPagePointer_fst_toNat]
    exact add_zeroExtend_toNat _ s.y

/-! ### The accesses of an effective address (R138, R140, R142) -/

/-- The reads `events` lead from `s` to `t`, one cycle each, and nothing else happens. -/
structure ReadsInto (s t : State) (events : List BusEvent) : Prop where
  logs : Logs s t events
  cyc : t.cyc = s.cyc + events.length
  reads : ReadsOnly s t

theorem ReadsInto.nil (s : State) : ReadsInto s s [] := ⟨(List.append_nil _).symm, rfl, .refl s⟩

theorem ReadsInto.trans {s t u : State} {events events' : List BusEvent} (h : ReadsInto s t events)
    (h' : ReadsInto t u events') : ReadsInto s u (events ++ events') :=
  ⟨h.logs.trans h'.logs, by rw [h'.cyc, h.cyc, List.length_append, Nat.add_assoc], h.reads.trans h'.reads⟩

theorem State.afterRead_readsInto (s : State) (a : Addr) : ReadsInto s (s.afterRead a) [.read a (s.busByte a)] :=
  ⟨s.afterRead_logs a, rfl, s.afterRead_readsOnly a⟩

/-- The dummy read of an indexed address: none in the read class where no page is crossed, one at the uncorrected address
otherwise. -/
def IndexDummy (s : State) (base : Addr) (index : Byte) (cls : Access) (dummy : List BusEvent) : Prop :=
  if cls = .read ∧ hiByte (base + index.zeroExtend 16) = hiByte base then dummy = []
  else ∃ w, Returns s (mkAddr (hiByte base) (loByte (base + index.zeroExtend 16))) w ∧
    dummy = [.read (mkAddr (hiByte base) (loByte (base + index.zeroExtend 16))) w]

theorem indexed_readsInto (base : Addr) (index : Byte) (cls : Access) (s : State) :
    ∃ dummy, ReadsInto s (indexed base index cls s).2 dummy ∧ IndexDummy s base index cls dummy := by
  simp only [indexed, IndexDummy]
  by_cases hnone : cls = .read ∧ hiByte (base + index.zeroExtend 16) = hiByte base
  · have hmade : ¬(cls ≠ .read ∨ crosses base (base + index.zeroExtend 16) = true) := by
      rw [crosses_iff]
      exact not_or.mpr ⟨not_not_intro hnone.1, not_not_intro hnone.2⟩
    rw [if_neg hmade]
    exact ⟨[], .nil s, by rw [if_pos hnone]⟩
  · have hmade : cls ≠ .read ∨ crosses base (base + index.zeroExtend 16) = true := by
      rw [crosses_iff]
      exact not_and_or.mp hnone
    rw [if_pos hmade]
    refine ⟨_, s.afterRead_readsInto _, ?_⟩
    rw [if_neg hnone]
    exact ⟨_, s.busByte_returns _, rfl⟩

/-- The two bytes of a zero-page pointer lie in SysRAM, so that each read returns what stood there before. -/
theorem zeroPagePointer_readsInto (d : Byte) (s : State) :
    ReadsInto s (zeroPagePointer d s).2
      [.read (zeroPage d) (s.busByte (zeroPage d)), .read (zeroPage (d + 1#8)) (s.busByte (zeroPage (d + 1#8)))] :=
  ⟨s.afterRead_zeroPage_logs d (d + 1#8), rfl, s.read16_readsOnly _ _⟩

/-- Settles O27: mode by mode; only the indexed modes have the dummy read that depends on the class. -/
theorem effectiveAddressAccesses : Obligations.EffectiveAddressAccesses := by
  intro s cls m
  cases m with
  | zp d | abs a => exact ⟨[], (ReadsInto.nil s).logs, rfl, (ReadsOnly.refl s).nothingChanged, [], rfl, rfl⟩
  | zpx d | zpy d =>
    have hread := s.afterRead_readsInto (zeroPage d)
    exact ⟨_, hread.logs, hread.cyc, hread.reads.nothingChanged, [], rfl, rfl⟩
  | abx a | aby a =>
    obtain ⟨dummy, hread, hdummy⟩ := indexed_readsInto a _ cls s
    exact ⟨dummy, hread.logs, hread.cyc, hread.reads.nothingChanged, dummy, hdummy, rfl⟩
  | izx d =>
    have hpointer := zeroPagePointer_readsInto (d + s.x) (s.afterRead (zeroPage d))
    rw [State.afterRead_busByte_sysRam (region_zeroPage _), State.afterRead_busByte_sysRam (region_zeroPage _)] at hpointer
    have hread := (s.afterRead_readsInto (zeroPage d)).trans hpointer
    exact ⟨_, hread.logs, hread.cyc, hread.reads.nothingChanged, [], rfl, rfl⟩
  | izy d =>
    have hpointer := zeroPagePointer_readsInto d s
    obtain ⟨dummy, hindex, hdummy⟩ := indexed_readsInto (zeroPagePointer d s).1 s.y cls (zeroPagePointer d s).2
    simp only [IndexDummy, hpointer.reads.returns_iff, zeroPagePointer_fst] at hdummy
    have hread := hpointer.trans hindex
    exact ⟨_, hread.logs, hread.cyc, hread.reads.nothingChanged, dummy, hdummy, rfl⟩
  | izp d =>
    have hread := zeroPagePointer_readsInto d s
    exact ⟨_, hread.logs, hread.cyc, hread.reads.nothingChanged, [], rfl, rfl⟩

/-! ### The operation classes (R145) -/

/-- Settles O28: the accesses of each class follow those of the effective address, which does not depend on the class. -/
theorem operationClasses : Obligations.OperationClasses := by
  intro s m v f
  have hread := effAddr_readsOnly m .read s
  obtain ⟨w', hdummy, hlog⟩ := modifyMem_busLog m f s
  exact ⟨⟨_, hread.returns_iff.mp (State.busByte_returns _ _), rfl, State.afterRead_busLog _ _,
      (readSrc_readsOnly (.mem m) s).nothingChanged⟩,
    ⟨State.memWrite_busLog _ _ _, (State.memWrite_storesAt _ _ _).of_readsOnly (effAddr_readsOnly m .write s)⟩,
    _, w', modifyMem_returns m f s, hdummy, rfl, hlog, modifyMem_storesAt m f s, effAddr_fst_cls m _ _ s,
    effAddr_fst_cls m _ _ s⟩

end Sys2Proof.Machine
end

section
/-! The inverse law of the ALU (R215, R216), and the settlement of O37. -/

namespace Sys2Proof.Machine

/-- Settles O37: what was added, carry included, is subtracted again, modulo 256. -/
theorem subtractUndoesAdd : Obligations.SubtractUndoesAdd := by
  intro a b c
  have ha := a.isLt
  have hb := b.isLt
  have hsum := aluAdc_result_toNat a b c
  have hcarry : (aluAdc a b c).c = decide (a.toNat + b.toNat + c.toNat > 0xFF) := rfl
  have hborrow : ((!c).toNat : Int) = 1 - c.toNat := by cases c <;> rfl
  have hc : c.toNat ≤ 1 := c.toNat_le
  constructor
  · apply BitVec.eq_of_toNat_eq
    rw [aluSbc_result, BitVec.toNat_ofInt]
    omega
  · rw [aluSbc_c, hcarry, ← decide_not]
    exact decide_eq_decide.mpr (by omega)

end Sys2Proof.Machine
end

section
/-! The run loop (R313, R350): the inputs of a boundary, the turns of a running and of a waiting machine, and the states that no
step leaves; and the settlement of O19, O20, O21, O22, O24, O25 and O55. -/

namespace Sys2Proof.Machine

open Sys2Proof.Rules

/-! ### The inputs of a boundary (R311, R312, R325) -/

/-- Sampling writes the requests and the script alone. -/
theorem State.sampleInputs_frame (s : State) :
    RegsKept s s.sampleInputs ∧ s.sampleInputs.p = s.p ∧ s.sampleInputs.pc = s.pc ∧ s.sampleInputs.run = s.run ∧
      s.sampleInputs.cyc = s.cyc ∧ s.sampleInputs.busLog = s.busLog ∧ SameStored s s.sampleInputs ∧
      s.sampleInputs.params = s.params := by
  unfold State.sampleInputs
  split <;> exact ⟨⟨rfl, rfl, rfl, rfl⟩, rfl, rfl, rfl, rfl, rfl, fun _ => rfl, rfl⟩

theorem State.sampleInputs_run (s : State) : s.sampleInputs.run = s.run := by
  obtain ⟨-, -, -, hrun, -⟩ := s.sampleInputs_frame
  exact hrun

theorem State.sampleInputs_flagI (s : State) : s.sampleInputs.flagI = s.flagI := congrArg (·.getLsbD 2) s.sampleInputs_p

theorem State.sampleInputs_nil {s : State} (h : s.inputs = []) : s.sampleInputs = s := by simp only [State.sampleInputs, h]

theorem State.sampleInputs_cons {s : State} {i : Input} {rest : List Input} (h : s.inputs = i :: rest) :
    s.sampleInputs = { s with
      inputs := rest, irqLine := i.irqLine, nmiPending := s.nmiPending || i.nmiEdge
      stopRequested := s.stopRequested || i.stop } := by simp only [State.sampleInputs, h]

/-! ### States that no step leaves (R281, R296, R325) -/

theorem run_of_step_self {s : State} (h : step s = .next s) (n : Nat) : Host.Core.run Sys2Proof.core n s = .next s := by
  induction n with
  | zero => rfl
  | succ n ih => rw [run_succ_of_next h, ih]

theorem step_of_halted_or_stopped {s : State} (h : s.run = .halted ∨ s.run = .stopped) : step s = .next s := by
  rcases h with h | h <;> simp only [step, h]

/-- Settles O20: a step of such a machine answers the same state. -/
theorem haltedAndStoppedAreTerminal : Obligations.HaltedAndStoppedAreTerminal := fun _ h =>
  run_of_step_self (step_of_halted_or_stopped h)

theorem step_of_stopRequested {s : State} (hboot : s.run ≠ .boot) (hstop : s.stopRequested = true) : step s = .next s := by
  have hturn : s.turn = .next s := if_pos hstop
  cases hrun : s.run <;> simp only [step, hrun]
  case boot => exact absurd hrun hboot
  case running | waiting => exact hturn

/-- Settles O22: the first clause is the definition of sampling; in the second a step answers the same state. -/
theorem inputsAreSampledAtBoundaries : Obligations.InputsAreSampledAtBoundaries := by
  refine fun s => ⟨fun i rest hinputs => ?_, fun hstop hboot => run_of_step_self (step_of_stopRequested hboot hstop)⟩
  have hframe := s.sampleInputs_frame
  rw [State.sampleInputs_cons hinputs] at hframe ⊢
  exact ⟨rfl, rfl, rfl, rfl, hframe⟩

/-- The two dummy reads at PC of WAI, STP and interrupt entry (R295, R296, R314). -/
theorem State.implied_implied_logs (s : State) :
    Logs s s.implied.implied [.read s.pc (s.busByte s.pc), .read s.pc ((s.afterRead s.pc).busByte s.pc)] :=
  s.read16_logs s.pc s.pc

theorem State.implied_implied_readsOnly (s : State) : ReadsOnly s s.implied.implied := s.read16_readsOnly s.pc s.pc

theorem State.implied_implied_cyc (s : State) : s.implied.implied.cyc = s.cyc + 2 := rfl

theorem exec_halt (s : State) : exec .halt s = .next (s.setRun .halted) := rfl
theorem exec_stp (s : State) : exec .stp s = .next (s.implied.implied.setRun .stopped) := rfl
theorem exec_wai (s : State) : exec .wai s = .next (s.implied.implied.setRun .waiting) := rfl

/-- Settles O55: HALT writes RUN alone, STP after its two dummy reads; the state they lead to is terminal. -/
theorem haltAndStopEndTheRun : Obligations.HaltAndStopEndTheRun := by
  intro s
  have hsame := ReadsOnly.refl s
  have hread := s.implied_implied_readsOnly
  refine ⟨⟨rfl, _, exec_halt s, rfl, hsame.regsKept, rfl, rfl, hsame.sameStored, hsame.sameEnv, (List.append_nil _).symm, rfl,
      haltedAndStoppedAreTerminal _ (.inl rfl)⟩,
    rfl, _, _, _, exec_stp s, rfl, hread.regsKept, hread.p, hread.pc, hread.sameStored, hread.sameEnv, s.busByte_returns s.pc,
    s.afterRead_busByte_returns s.pc s.pc, s.implied_implied_logs, rfl, haltedAndStoppedAreTerminal _ (.inr rfl)⟩

/-! ### Turns -/

theorem step_of_running {s : State} (h : s.run = .running) : step s = s.turn := by simp only [step, h]

theorem step_of_waiting {s : State} (h : s.run = .waiting) : step s = s.turn := by simp only [step, h]

section

variable {s : State} (hstop : s.stopRequested = false)

include hstop

theorem State.turn_of_stop (hstop' : s.sampleInputs.stopRequested = true) : s.turn = .next s.sampleInputs := by
  simp only [State.turn, hstop, hstop', Bool.false_eq_true, if_false, if_true]

variable (hstop' : s.sampleInputs.stopRequested = false)

include hstop'

theorem State.turn_of_waiting (hrun : s.run = .waiting) (hnmi : s.sampleInputs.nmiPending = false)
    (hirq : s.sampleInputs.irqLine = false) : s.turn = .next (s.sampleInputs.idle 1) := by
  have hidle : s.sampleInputs.run = .waiting ∧ !(s.sampleInputs.nmiPending || s.sampleInputs.irqLine) := by
    simp [s.sampleInputs_run, hrun, hnmi, hirq]
  simp only [State.turn, hstop, hstop', Bool.false_eq_true, if_false]
  rw [if_pos hidle]

/-- A running machine, and a waiting one with a request, runs the poll and then an instruction. -/
theorem State.turn_of_active
    (h : s.run = .waiting → (s.sampleInputs.nmiPending || s.sampleInputs.irqLine) = true) :
    s.turn = (s.sampleInputs.setRun .running).poll.fetchExecute := by
  have hactive : ¬(s.sampleInputs.run = .waiting ∧ !(s.sampleInputs.nmiPending || s.sampleInputs.irqLine)) := by
    rintro ⟨hrun, hnone⟩
    rw [h (s.sampleInputs_run.symm.trans hrun)] at hnone
    cases hnone
  simp only [State.turn, hstop, hstop', Bool.false_eq_true, if_false]
  rw [if_neg hactive]

/-- The three ways of an active machine through the poll (R313), from the state `u` in which it runs with its inputs sampled. -/
theorem State.turn_poll (h : s.run = .waiting → (s.sampleInputs.nmiPending || s.sampleInputs.irqLine) = true) {u : State}
    (hu : s.sampleInputs.setRun .running = u) :
    (u.nmiPending = true → s.turn = State.fetchExecute (State.interruptEntry { u with nmiPending := false } nmiVector)) ∧
    (u.nmiPending = false → (u.irqLine && !s.flagI) = true → s.turn = State.fetchExecute (u.interruptEntry irqVector)) ∧
    (u.nmiPending = false → (u.irqLine && !s.flagI) = false → s.turn = u.fetchExecute) := by
  have hflag : u.flagI = s.flagI := hu ▸ s.sampleInputs_flagI
  rw [State.turn_of_active hstop hstop' h, hu, ← hflag]
  exact ⟨fun hnmi => by rw [State.poll_of_nmi hnmi], fun hnmi hirq => by rw [State.poll_of_irq hnmi hirq],
    fun hnmi hirq => by rw [State.poll_of_none hnmi hirq]⟩

end

theorem State.setRun_self {s : State} {r : Run} (h : s.run = r) : s.setRun r = s := by
  subst h
  rfl

/-- Settles O21: a running machine is active, and its RUN is as the poll wants it. -/
theorem pollOrder : Obligations.PollOrder := by
  intro s hrun hstop
  have hpoll (hstop' : s.sampleInputs.stopRequested = false) :=
    State.turn_poll hstop hstop' (fun hwaiting => absurd (hrun.symm.trans hwaiting) (by decide))
      (State.setRun_self (s.sampleInputs_run.trans hrun))
  rw [step_of_running hrun]
  refine ⟨State.turn_of_stop hstop, fun hstop' => ?nmi, fun hstop' hnmi hline hi => ?irq, fun hstop' hnmi hline hi => ?masked,
    fun hstop' hnmi hline => ?none⟩ <;>
    obtain ⟨hentersNmi, hentersIrq, hfetches⟩ := hpoll hstop'
  case nmi => exact hentersNmi
  case irq => exact hentersIrq hnmi (by rw [hline, hi]; rfl)
  case masked => exact hfetches hnmi (by rw [hline, hi]; rfl)
  case none => exact hfetches hnmi (by rw [hline]; rfl)

/-- Settles O24: WAI writes RUN after its two dummy reads; a waiting machine is active where a request has come. -/
theorem waitForInterrupt : Obligations.WaitForInterrupt := by
  refine ⟨rfl, fun s => ?wai, fun s hrun hstop => ?_⟩
  case wai =>
    have hread := s.implied_implied_readsOnly
    exact ⟨_, _, _, exec_wai s, rfl, s.busByte_returns s.pc, s.afterRead_busByte_returns s.pc s.pc, s.implied_implied_logs, rfl,
      hread.regsKept, hread.p, hread.pc, hread.sameStored, hread.sameEnv⟩
  have hpoll (hstop' : s.sampleInputs.stopRequested = false)
      (hrequest : (s.sampleInputs.nmiPending || s.sampleInputs.irqLine) = true) :=
    State.turn_poll hstop hstop' (fun _ => hrequest) rfl
  rw [step_of_waiting hrun]
  refine ⟨State.turn_of_stop hstop, fun hstop' => State.turn_of_waiting hstop hstop' hrun, fun hstop' hnmi => ?nmi,
    fun hstop' hnmi hline hi => ?irq, fun hstop' hnmi hline hi => ?masked⟩
  case nmi =>
    obtain ⟨hentersNmi, -, -⟩ := hpoll hstop' (by rw [hnmi]; rfl)
    exact hentersNmi hnmi
  case irq =>
    obtain ⟨-, hentersIrq, -⟩ := hpoll hstop' (by rw [hline, Bool.or_true])
    exact hentersIrq hnmi (by rw [State.setRun_irqLine, hline, hi]; rfl)
  case masked =>
    obtain ⟨-, -, hfetches⟩ := hpoll hstop' (by rw [hline, Bool.or_true])
    exact hfetches hnmi (by rw [State.setRun_irqLine, hline, hi]; rfl)

/-- Settles O25: with nothing to sample a step of a waiting machine is one idle cycle, and it still waits. -/
theorem waitWithoutSourceNeverEnds : Obligations.WaitWithoutSourceNeverEnds := by
  intro s hrun hstop hinputs hnmi hirq n
  induction n generalizing s with
  | zero => rfl
  | succ n ih =>
    have hsample := State.sampleInputs_nil hinputs
    have hstep : step s = .next (s.idle 1) := by
      have hwait := State.turn_of_waiting hstop (by rwa [hsample]) hrun (by rwa [hsample]) (by rwa [hsample])
      rw [step_of_waiting hrun, hwait, hsample]
    rw [run_succ_of_next hstep, ih (s.idle 1) hrun hstop hinputs hnmi hirq]
    simp only [State.idle, List.replicate_succ', List.append_assoc, List.singleton_append, Nat.add_assoc, Nat.add_comm 1 n]

/-! ### The fetch (R350) -/

/-- BBR and BBS fetch two of their bytes before they execute, every other instruction all. -/
theorem fetchCount_pos_le_length (i : Instr) : 1 ≤ fetchCount i ∧ fetchCount i ≤ i.length := by
  cases i
  case bbr | bbs => exact ⟨Nat.le_succ 1, Nat.le_succ 2⟩
  all_goals exact ⟨Nat.le_add_right 1 _, le_rfl⟩

theorem fetchCount_decodeBytes (v : Variant) (b0 b1 b2 : Byte) :
    fetchCount (decodeBytes v b0 b1 b2) ∈ [1, 2, 3] := by
  obtain ⟨-, -, hoperands⟩ := opcodeRow_encodesTo v b0 b1 b2
  have hlength : (decodeBytes v b0 b1 b2).length = 1 + ((opcodeRow v b0).operands b1 b2).length :=
    congrArg (1 + ·.length) hoperands
  have hle := (opcodeRow v b0).operands_length_le b1 b2
  obtain ⟨hpos, hcount⟩ := fetchCount_pos_le_length (decodeBytes v b0 b1 b2)
  simp only [List.mem_cons, List.not_mem_nil, or_false]
  omega

/-- From `s` to `f` the bytes of `events` have been fetched at PC, one cycle each, and nothing else has happened. -/
structure Fetches (s f : State) (events : List BusEvent) : Prop where
  pc : f.pc = s.pc + BitVec.ofNat 16 events.length
  cyc : f.cyc = s.cyc + events.length
  logs : Logs s f events
  reads : ReadsOnly (s.setPc f.pc) f

theorem State.fetch8_fetches (s : State) : Fetches s s.fetch8.2 [.read s.pc s.fetch8.1] :=
  ⟨rfl, rfl, s.afterRead_logs s.pc, s.fetch8_readsOnly⟩

theorem Fetches.trans {s f g : State} {events events' : List BusEvent} (h : Fetches s f events) (h' : Fetches f g events') :
    Fetches s g (events ++ events') where
  pc := by rw [h'.pc, h.pc, List.length_append, BitVec.ofNat_add, BitVec.add_assoc]
  cyc := by rw [h'.cyc, h.cyc, List.length_append, Nat.add_assoc]
  logs := h.logs.trans h'.logs
  reads := by
    have hpc : ReadsOnly (s.setPc g.pc) (f.setPc g.pc) := congrArg (State.setPc · g.pc) h.reads
    exact hpc.trans h'.reads

/-- The three bytes that the decoder is given, and the state after as many fetches as the instruction makes. -/
theorem State.fetchInstr_fetches (s : State) : ∃ b0 b1 b2,
    Returns s s.pc b0 ∧ Returns s (s.pc + 1#16) b1 ∧ Returns s (s.pc + 2#16) b2 ∧
    s.fetchInstr.1 = decodeBytes s.params.variant b0 b1 b2 ∧
    Fetches s s.fetchInstr.2 ([BusEvent.read s.pc b0, .read (s.pc + 1#16) b1, .read (s.pc + 2#16) b2].take
      (fetchCount s.fetchInstr.1)) := by
  have h1 := s.fetch8_fetches
  have h2 := h1.trans s.fetch8.2.fetch8_fetches
  have h3 := h2.trans s.fetch8.2.fetch8.2.fetch8_fetches
  have hpc : s.pc + 1#16 + 1#16 = s.pc + 2#16 := BitVec.add_assoc s.pc 1#16 1#16
  have hb1 : Returns s (s.pc + 1#16) s.fetch8.2.fetch8.1 := h1.reads.returns_iff.mp (State.busByte_returns s.fetch8.2 _)
  have hb2 : Returns s (s.pc + 1#16 + 1#16) s.fetch8.2.fetch8.2.fetch8.1 :=
    h2.reads.returns_iff.mp (State.busByte_returns s.fetch8.2.fetch8.2 _)
  have hcount := fetchCount_decodeBytes s.params.variant s.fetch8.1 s.fetch8.2.fetch8.1 s.fetch8.2.fetch8.2.fetch8.1
  refine ⟨_, _, _, s.busByte_returns s.pc, hb1, hpc ▸ hb2, rfl, ?_⟩
  simp only [State.fetchInstr]
  generalize decodeBytes s.params.variant s.fetch8.1 s.fetch8.2.fetch8.1 s.fetch8.2.fetch8.2.fetch8.1 = i at hcount ⊢
  simp only [List.mem_cons, List.not_mem_nil, or_false] at hcount
  rcases hcount with hn | hn | hn <;> rw [hn]
  · exact h1
  · exact h2
  · rw [← hpc]
    exact h3

/-- Settles O19: nothing in the poll diverts the machine, so that the fetch follows the sampling. -/
theorem stepRunsTheDecodedInstruction : Obligations.StepRunsTheDecodedInstruction := by
  intro s hrun hstop u hstop' hnmi hirq
  obtain ⟨hregs, hp, hpc, hrun', hcyc, hlog, hstored, hparams⟩ := s.sampleInputs_frame
  obtain ⟨-, -, hfetches⟩ := State.turn_poll hstop hstop' (fun hwaiting => absurd (hrun.symm.trans hwaiting) (by decide))
    (State.setRun_self (hrun'.trans hrun))
  have hstep : step s = u.fetchExecute := by
    rw [step_of_running hrun]
    exact hfetches hnmi (s.sampleInputs_flagI ▸ hirq)
  have hreturns (a : Addr) (v : Byte) : Returns u a v ↔ Returns s a v := by simp only [Returns, u, hparams, hstored a]
  obtain ⟨b0, b1, b2, hb0, hb1, hb2, hinstr, hfetch⟩ := u.fetchInstr_fetches
  rw [hreturns, hpc] at hb0 hb1 hb2
  rw [hpc, hinstr, hparams] at hfetch
  have hcount : fetchCount (decodeBytes s.params.variant b0 b1 b2) ≤ 3 := by
    have hmem := fetchCount_decodeBytes s.params.variant b0 b1 b2
    simp only [List.mem_cons, List.not_mem_nil, or_false] at hmem
    omega
  obtain ⟨hfpc, hfcyc, hflogs, hread⟩ := hfetch
  rw [List.length_take_of_le hcount] at hfpc hfcyc
  have hexec : step s = exec (decodeBytes s.params.variant b0 b1 b2) u.fetchInstr.2 := by
    rw [hstep, State.fetchExecute, hinstr, hparams]
  generalize u.fetchInstr.2 = f at *
  rw [Logs, hlog] at hflogs
  exact ⟨b0, b1, b2, f, hb0, hb1, hb2, hexec, hfpc.trans (by rw [hpc]), hfcyc.trans (by rw [hcyc]), hflogs,
    hregs.trans hread.regsKept, hread.p.trans hp, hread.run.trans (hrun'.trans hrun), SameStored.trans hstored hread.sameStored,
    hread.sameEnv⟩

end Sys2Proof.Machine
end

section
/-! Interrupt entry (R314), and the settlement of O23. -/

namespace Sys2Proof.Machine

open Sys2Proof.Rules

/-- Settles O23: two dummy reads, which change no register and no byte, and then the entry with B = 0. -/
theorem interruptEntrySequence : Obligations.InterruptEntrySequence := by
  intro s vec hvec
  have hlow : 0xE000 ≤ vec.toNat := by rcases hvec with rfl | rfl <;> decide
  have hhigh : 0xE000 ≤ (vec + 1#16).toNat := by rcases hvec with rfl | rfl <;> decide
  have hread := s.implied_implied_readsOnly
  have hreadLogs := s.implied_implied_logs
  have hreadCyc := s.implied_implied_cyc
  have hrom {a : Addr} (ha : 0xE000 ≤ a.toNat) : s.stored a = some (s.implied.implied.busByte a) :=
    (hread.stored a).symm.trans (State.stored_of_rom0 _ ha)
  have hentry : s.interruptEntry vec = s.implied.implied.takeException vec false := rfl
  refine ⟨_, _, _, _, s.busByte_returns s.pc, s.afterRead_busByte_returns s.pc s.pc, hrom hlow, hrom hhigh, ?_⟩
  rw [hentry]
  generalize s.implied.implied = d at *
  obtain ⟨hpc, hvector, hvectorLogs, hcyc⟩ := d.takeException_entersVector false hlow hhigh
  obtain ⟨hsetsI, hclearsD, hkept⟩ := d.takeException_flags vec false
  obtain ⟨ha, hx, hy, hrun⟩ := d.saveForEntry_frame false
  have hsp := d.saveForEntry_sp false
  have hstored := d.saveForEntry_stored false
  have hpushes := d.saveForEntry_logs false
  have henv := d.saveForEntry_sameEnv false
  simp only [hread.sp, hread.pc, hread.p, hread.params, hread.stored] at hsp hstored hpushes hclearsD hkept
  have hlogs := hreadLogs.trans (hpushes.trans hvectorLogs)
  have hkept' : StatusKept (if s.params.intClearsD then [2, 3] else [2]) s (d.takeException vec false) := fun k hk hlisted => by
    rw [hkept k hk hlisted, hread.p]
  generalize d.takeException vec false = t at *
  exact ⟨hpc, hvector.sp.trans hsp, (hvector.a.trans ha).trans hread.a, (hvector.x.trans hx).trans hread.x,
    (hvector.y.trans hy).trans hread.y, (hvector.run.trans hrun).trans hread.run,
    (hread.sameEnv.trans henv).trans hvector.sameEnv, hsetsI, hclearsD, hkept',
    fun b => (hvector.stored b).trans (hstored b), hlogs, by omega⟩

end Sys2Proof.Machine
end

section
/-! BRK and RTI as steps (R270, R271, R350), and the settlement of O53. -/

namespace Sys2Proof.Machine

open Sys2Proof.Rules

/-- BRK and RTI stand in the opcode map of every variant (R107, R290). -/
theorem decodeBytes_brk (v : Variant) (b1 b2 : Byte) : decodeBytes v 0x00#8 b1 b2 = .brk := by
  rw [decodeBytes, opcodeRow_of_ungated (.of_opcode v (by decide))]
  rfl

theorem decodeBytes_rti (v : Variant) (b1 b2 : Byte) : decodeBytes v 0x40#8 b1 b2 = .rti := by
  rw [decodeBytes, opcodeRow_of_ungated (.of_opcode v (by decide))]
  rfl

/-- At a quiet boundary a step executes an instruction of one byte on the state after one fetch. -/
theorem Quiet.step_eq_exec_of_one {s : State} {i : Instr} {op : Byte} (h : Quiet s) (hop : s.stored s.pc = some op)
    (hdecode : ∀ b1 b2, decodeBytes s.params.variant op b1 b2 = i) (hfetched : fetchCount i = 1) :
    step s = exec i s.fetch8.2 := by
  rw [h.step_eq_fetchExecute]
  refine State.fetchExecute_of_fetchCount_one ?_ hfetched
  rw [State.fetch8_fst_of_stored hop, hdecode]

/-- A boundary stays quiet while RUN and the outside world's requests are kept and I is not cleared. -/
theorem Quiet.of_flagI {s t : State} (h : Quiet s) (hrun : t.run = s.run) (hi : s.flagI = true → t.flagI = true)
    (henv : SameEnv s t) : Quiet t := by
  obtain ⟨hrunning, hstop, hinputs, hnmi, hirq⟩ := h
  obtain ⟨-, hinputs', hirq', hnmi', hstop'⟩ := henv
  refine ⟨hrun.trans hrunning, hstop'.trans hstop, hinputs'.trans hinputs, hnmi'.trans hnmi, ?_⟩
  rw [hirq']
  cases hline : s.irqLine with
  | false => rfl
  | true =>
    rw [hline, Bool.true_and, Bool.not_eq_false'] at hirq
    rw [hi hirq]
    rfl

/-- A step that executes a BRK: R270 with the fetch before it. -/
theorem Quiet.step_brk {s : State} (h : Quiet s) (hop : s.stored s.pc = some 0x00#8) :
    ∃ t, step s = .next t ∧ t.sp = s.sp - 3#8 ∧ t.cyc = s.cyc + 7 ∧ t.a = s.a ∧ t.x = s.x ∧ t.y = s.y ∧
      t.run = s.run ∧ SameEnv s t ∧ Quiet t ∧
      ∀ b, t.stored b =
        if b = stackAddr (s.sp - 2#8) then some (s.p ||| 0x30#8)
        else if b = stackAddr (s.sp - 1#8) then some (loByte (s.pc + 2#16))
        else if b = stackAddr s.sp then some (hiByte (s.pc + 2#16))
        else s.stored b := by
  have hfetch := s.fetch8_fetches
  rw [h.step_eq_exec_of_one hop (decodeBytes_brk _) rfl]
  generalize s.fetch8.2 = f at hfetch ⊢
  obtain ⟨hfpc, hfcyc, -, hread⟩ := hfetch
  obtain ⟨-, hbreak⟩ := breakSequence
  obtain ⟨_, _, _, t, hexec, -, -, -, -, hsp, ha, hx, hy, hrun, henv, hi, -, -, hstored, -, hcosts⟩ := hbreak f
  have hret : f.pc + 1#16 = s.pc + 2#16 := by
    rw [hfpc]
    exact BitVec.add_assoc s.pc 1#16 1#16
  have henv' := hread.sameEnv.trans henv
  simp only [hread.sp, hread.p, hread.stored, hret, State.setPc_sp, State.setPc_p, State.setPc_stored] at hsp hstored
  have hcyc : t.cyc = s.cyc + 7 := by
    have h1 : t.cyc + 1 = f.cyc + 7 := hcosts
    have h2 : f.cyc = s.cyc + 1 := hfcyc
    omega
  exact ⟨t, hexec, hsp, hcyc, ha.trans hread.a, hx.trans hread.x, hy.trans hread.y, hrun.trans hread.run,
    henv', h.of_flagI (hrun.trans hread.run) (fun _ => hi) henv', hstored⟩

/-- A step that executes an RTI: R271 with the fetch before it. -/
theorem Quiet.step_rti {s : State} {p lo hi : Byte} (h : Quiet s) (hop : s.stored s.pc = some 0x40#8)
    (hp : s.stored (stackAddr (s.sp + 1#8)) = some p) (hlo : s.stored (stackAddr (s.sp + 2#8)) = some lo)
    (hhi : s.stored (stackAddr (s.sp + 3#8)) = some hi) :
    ∃ t, step s = .next t ∧ t.pc = mkAddr hi lo ∧ t.sp = s.sp + 3#8 ∧ t.p = p ||| 0x20#8 ∧ t.cyc = s.cyc + 6 ∧
      t.a = s.a ∧ t.x = s.x ∧ t.y = s.y ∧ t.run = s.run ∧ SameEnv s t ∧ SameStored s t := by
  have hfetch := s.fetch8_fetches
  rw [h.step_eq_exec_of_one hop (decodeBytes_rti _) rfl]
  generalize s.fetch8.2 = f at hfetch ⊢
  obtain ⟨-, hfcyc, -, hread⟩ := hfetch
  obtain ⟨-, hreturn⟩ := returnFromInterrupt
  obtain ⟨_, _, p', lo', hi', t, hexec, hp', hlo', hhi', htp, hpc, hsp, -, -, -, hcosts, ha, hx, hy, hrun, hsame, henv⟩ :=
    hreturn f
  simp only [hread.sp, hread.stored, State.setPc_sp, State.setPc_stored] at hp' hlo' hhi' hsp
  obtain rfl : p = p' := Option.some.inj (hp.symm.trans hp')
  obtain rfl : lo = lo' := Option.some.inj (hlo.symm.trans hlo')
  obtain rfl : hi = hi' := Option.some.inj (hhi.symm.trans hhi')
  have hcyc : t.cyc = s.cyc + 6 := by
    have h1 : t.cyc + 1 = f.cyc + 6 := hcosts
    have h2 : f.cyc = s.cyc + 1 := hfcyc
    omega
  exact ⟨t, hexec, hpc, hsp, htp, hcyc, ha.trans hread.a, hx.trans hread.x, hy.trans hread.y, hrun.trans hread.run,
    hread.sameEnv.trans henv, hread.sameStored.trans hsame⟩

/-- Settles O53: the RTI pops the three bytes that the BRK has pushed. -/
theorem breakAndReturn : Obligations.BreakAndReturn := by
  intro s t hquiet hop hbreak hrti
  obtain ⟨t', hbreak', hsp, hcyc, ha, hx, hy, hrun, henv, hquiet', hpushed⟩ := hquiet.step_brk hop
  obtain rfl : t = t' := Host.Outcome.next.inj (hbreak.symm.trans hbreak')
  have hne : stackAddr s.sp ≠ stackAddr (s.sp - 2#8) := by rw [Ne, stackAddr_inj]; bv_omega
  have hne' : stackAddr (s.sp - 1#8) ≠ stackAddr (s.sp - 2#8) := by rw [Ne, stackAddr_inj]; bv_omega
  have hstatus : t.stored (stackAddr (t.sp + 1#8)) = some (s.p ||| 0x30#8) := by
    rw [hsp, show s.sp - 3#8 + 1#8 = s.sp - 2#8 by bv_omega, hpushed, if_pos rfl]
  have hlow : t.stored (stackAddr (t.sp + 2#8)) = some (loByte (s.pc + 2#16)) := by
    rw [hsp, show s.sp - 3#8 + 2#8 = s.sp - 1#8 by bv_omega, hpushed, if_neg hne', if_pos rfl]
  have hback : t.sp + 3#8 = s.sp := by rw [hsp]; exact BitVec.sub_add_cancel s.sp 3#8
  have hhigh : t.stored (stackAddr (t.sp + 3#8)) = some (hiByte (s.pc + 2#16)) := by
    rw [hback, hpushed, if_neg hne, if_neg (stackAddr_ne_pred s.sp), if_pos rfl]
  obtain ⟨u, hreturn, hupc, husp, hup, hucyc, hua, hux, huy, hurun, huenv, hsame⟩ := hquiet'.step_rti hrti hstatus hlow hhigh
  have hp : u.p = s.p ||| 0x30#8 := hup.trans (BitVec.or_assoc s.p 0x30#8 0x20#8)
  have hframe (b : Addr) (h0 : b ≠ stackAddr s.sp) (h1 : b ≠ stackAddr (s.sp - 1#8)) (h2 : b ≠ stackAddr (s.sp - 2#8)) :
      u.stored b = s.stored b := by
    rw [hsame, hpushed, if_neg h2, if_neg h1, if_neg h0]
  have hi : u.flagI = s.flagI := by
    rw [State.flagI, State.flagI, hp]
    simp
  have hquiet'' : Quiet u := hquiet.of_flagI (hurun.trans hrun) hi.trans (henv.trans huenv)
  exact ⟨u, hreturn, hupc.trans (mkAddr_hiByte_loByte _), husp.trans hback, hua.trans ha, hux.trans hx, huy.trans hy, hp,
    by omega, hquiet'', hframe⟩

end Sys2Proof.Machine
end

section
/-! The branches on a memory bit (R292, R294): the sequence, their opcodes, the step that executes one, and the settlement
of O57. -/

namespace Sys2Proof.Machine

open Sys2Proof.Rules

/-- A read of the zero page draws no placeholder, so that it changes no other read. -/
theorem State.afterRead_zeroPage_busByte (s : State) (d : Byte) (a : Addr) :
    (s.afterRead (zeroPage d)).busByte a = s.busByte a := by
  have hdraws : (s.afterRead (zeroPage d)).draws = s.draws := by rw [State.afterRead_draws, s.stored_zeroPage d]; rfl
  simp only [State.busByte, State.afterRead_stored, State.afterRead_params, hdraws]

/-- A branch depends on PC and on what may be read, which are the same where only reads lie between. -/
theorem Branches.of_readsOnly {taken : Bool} {off : Byte} {s t u : State} {events : List BusEvent} (h : ReadsOnly s t)
    (hbranches : Branches taken off t u events) : Branches taken off s u events := by
  simpa only [Branches, h.pc, h.returns_iff] using hbranches

/-- The sequence of BBR and BBS: two reads of the zero-page byte, the fetch of the offset byte, and the branch. -/
theorem State.bitBranch_branches (s : State) (wanted : Bool) (n : BitVec 3) (d off : Byte) : ∃ events,
    Branches ((s.busByte (zeroPage d)).getLsbD n.toNat == wanted) off (s.setPc (s.pc + 1#16)) (s.bitBranch wanted n d off)
      events ∧
    Logs s (s.bitBranch wanted n d off) ([.read (zeroPage d) (s.busByte (zeroPage d)),
      .read (zeroPage d) (s.busByte (zeroPage d)), .read s.pc (s.busByte s.pc)] ++ events) ∧
    (s.bitBranch wanted n d off).cyc = s.cyc + 3 + events.length ∧
    ReadsOnly (s.setPc (s.bitBranch wanted n d off).pc) (s.bitBranch wanted n d off) := by
  have hreadLogs := s.afterRead_zeroPage_logs d d
  have hfetch := ((s.afterRead (zeroPage d)).afterRead (zeroPage d)).fetch8_fetches
  have hread : ReadsOnly (s.setPc (s.pc + 1#16)) ((s.afterRead (zeroPage d)).afterRead (zeroPage d)).fetch8.2 := rfl
  have hbranch : s.bitBranch wanted n d off = ((s.afterRead (zeroPage d)).afterRead (zeroPage d)).fetch8.2.branch
      ((s.busByte (zeroPage d)).getLsbD n.toNat == wanted) off := rfl
  simp only [State.fetch8_fst, State.afterRead_pc, State.afterRead_zeroPage_busByte] at hfetch
  rw [hbranch]
  generalize ((s.afterRead (zeroPage d)).afterRead (zeroPage d)).fetch8.2 = g at *
  obtain ⟨events, hbranches, hlogs, hcyc⟩ := g.branch_branches ((s.busByte (zeroPage d)).getLsbD n.toNat == wanted) off
  have hpc := g.branch_readsOnly ((s.busByte (zeroPage d)).getLsbD n.toNat == wanted) off
  generalize g.branch ((s.busByte (zeroPage d)).getLsbD n.toNat == wanted) off = t at *
  refine ⟨events, Branches.of_readsOnly hread hbranches, (hreadLogs.trans hfetch.logs).trans hlogs, ?_, ?_⟩
  · rw [hcyc, hfetch.cyc]; rfl
  · have hset : ReadsOnly (s.setPc t.pc) (g.setPc t.pc) := congrArg (State.setPc · t.pc) hread
    rw [hpc.pc] at hset ⊢
    exact hset.trans hpc

/-- BBRn or BBSn: the instruction that branches where bit `n` of a zero-page byte is `value`. -/
def bitTestBranch (value : Bool) (n : BitVec 3) (d off : Byte) : Instr := if value then .bbs n d off else .bbr n d off

theorem encode_bitTestBranch (value : Bool) (n : BitVec 3) (d off : Byte) :
    encode (bitTestBranch value n d off) =
      some [BitVec.ofNat 8 ((if value then 0x8F else 0x0F) + 0x10 * n.toNat), d, off] := by
  rw [← bitOpcode_eq_ofNat]
  cases value <;> rfl

theorem fetchCount_bitTestBranch (value : Bool) (n : BitVec 3) (d off : Byte) :
    fetchCount (bitTestBranch value n d off) = 2 := by
  cases value <;> rfl

theorem exec_bitTestBranch (value : Bool) (n : BitVec 3) (d off : Byte) (s : State) :
    exec (bitTestBranch value n d off) s = .next (s.bitBranch value n d off) := by
  cases value <;> rfl

/-- In the rockwell variants column F holds the branches on a bit: the bit number is in bits 6:4, the wanted value in bit 7. -/
theorem decodeBytes_bitTestBranch {v : Variant} (hv : v.bitops = .rockwell) {b0 : Byte} (hcolumn : b0.toNat % 16 = 0xF)
    (d off : Byte) :
    decodeBytes v b0 d off = bitTestBranch (decide (0x80 ≤ b0.toNat)) (opcodeBit b0) d off := by
  have hn := (opcodeBit b0).isLt
  rcases eq_bitOpcode hcolumn with hop | hop
  · have hmsb : decide (0x80 ≤ b0.toNat) = false := by
      rw [hop, bitOpcode_eq_ofNat, BitVec.toNat_ofNat, decide_eq_false_iff_not]
      omega
    have hrow : opcodeRow v b0 = .zprel fun d off => .bbr (opcodeBit b0) d off := by
      rw [← opcodeRow_bbr hv (opcodeBit b0)]
      exact congrArg (opcodeRow v) hop
    rw [hmsb, decodeBytes, hrow]
    rfl
  · have hmsb : decide (0x80 ≤ b0.toNat) = true := by
      rw [hop, bitOpcode_eq_ofNat, BitVec.toNat_ofNat, decide_eq_true_iff]
      omega
    have hrow : opcodeRow v b0 = .zprel fun d off => .bbs (opcodeBit b0) d off := by
      rw [← opcodeRow_bbs hv (opcodeBit b0)]
      exact congrArg (opcodeRow v) hop
    rw [hmsb, decodeBytes, hrow]
    rfl

theorem State.fetchExecute_of_fetchCount_two {s : State} {i : Instr}
    (hdecode : decodeBytes s.params.variant s.fetch8.1 s.fetch8.2.fetch8.1 s.fetch8.2.fetch8.2.fetch8.1 = i)
    (hfetched : fetchCount i = 2) : s.fetchExecute = exec i s.fetch8.2.fetch8.2 := by
  simp only [State.fetchExecute, State.fetchInstr, hdecode, hfetched]

/-- A step that executes a BBR or BBS: the decoder is given the byte that the operation then fetches as its offset. -/
theorem Quiet.step_bitTestBranch {s : State} {b0 d : Byte} (h : Quiet s) (hv : s.params.variant.bitops = .rockwell)
    (hcolumn : b0.toNat % 16 = 0xF) (hop : s.stored s.pc = some b0) (hd : s.stored (s.pc + 1#16) = some d) :
    ∃ f, Fetches s f [.read s.pc b0, .read (s.pc + 1#16) d] ∧
      step s = .next (f.bitBranch (decide (0x80 ≤ b0.toNat)) (opcodeBit b0) d (f.busByte f.pc)) := by
  have hb0 := State.fetch8_fst_of_stored hop
  have hb1 : s.fetch8.2.fetch8.1 = d := State.fetch8_fst_of_stored (s := s.fetch8.2) hd
  have hfetch := s.fetch8_fetches.trans s.fetch8.2.fetch8_fetches
  rw [hb0, hb1] at hfetch
  refine ⟨s.fetch8.2.fetch8.2, hfetch, ?_⟩
  rw [h.step_eq_fetchExecute, State.fetchExecute_of_fetchCount_two
    (by rw [hb0, hb1, decodeBytes_bitTestBranch hv hcolumn]) (fetchCount_bitTestBranch _ _ _ _), exec_bitTestBranch]
  rfl

/-- Settles O57: the first part is the sequence; in a step the byte that the decoder saw and the byte that is fetched for the
offset are one, since the reads between them draw no placeholder. -/
theorem branchOnMemoryBit : Obligations.BranchOnMemoryBit := by
  refine ⟨fun n d off s value => ?exec, fun s t b0 d v hquiet hv hcolumn hop hd hbyte hnext => ?step⟩
  case exec =>
    obtain ⟨events, hbranches, hlogs, hcyc, hread⟩ := s.bitBranch_branches value n d off
    have hcosts : Costs (bitTestBranch value n d off) s (s.bitBranch value n d off) (5 + events.length) := by
      rw [Costs, hcyc, fetchCount_bitTestBranch]
      omega
    exact ⟨encode_bitTestBranch value n d off, _, _, _, events, exec_bitTestBranch value n d off s, s.stored_zeroPage d,
      s.busByte_returns s.pc, hbranches, hlogs, hcosts, hread.regsKept, hread.p, hread.run, hread.sameStored, hread.sameEnv⟩
  case step =>
    obtain ⟨f, hfetch, hstep⟩ := hquiet.step_bitTestBranch hv hcolumn hop hd
    obtain rfl := Host.Outcome.next.inj (hstep.symm.trans hnext)
    obtain ⟨events, hbranches, hlogs, -, -⟩ :=
      f.bitBranch_branches (decide (0x80 ≤ b0.toNat)) (opcodeBit b0) d (f.busByte f.pc)
    have hpc : f.pc = s.pc + 2#16 := hfetch.pc
    have hnext : f.pc + 1#16 = s.pc + 3#16 := by
      rw [hpc]
      exact BitVec.add_assoc s.pc 2#16 1#16
    have hv' : f.busByte (zeroPage d) = v := State.busByte_of_stored ((hfetch.reads.stored _).trans hbyte)
    have hread : ReadsOnly (s.setPc (s.pc + 3#16)) (f.setPc (f.pc + 1#16)) := by
      rw [hnext]
      exact congrArg (State.setPc · (s.pc + 3#16)) hfetch.reads
    have hoff : Returns s (s.pc + 2#16) (f.busByte f.pc) := hpc ▸ hfetch.reads.returns_iff.mp (f.busByte_returns f.pc)
    have hlogs' := hfetch.logs.trans hlogs
    rw [hv'] at hbranches hlogs'
    rw [opcodeBit_toNat] at hbranches
    exact ⟨f.busByte f.pc, events, hoff, Branches.of_readsOnly hread hbranches, hpc ▸ hlogs'⟩

end Sys2Proof.Machine
end
